-- ==== Sys2Proof/Word.lean ====
section
/-! DEFINITION. The word widths of the TDDS-RB: a register as the HOST sees it, a counter count, the
DDS words, and one word on the serial port. -/

namespace Sys2Proof

/-- One byte lane of a register (20_memory.md R62). -/
abbrev Byte := BitVec 8

/-- A register as the HOST reads and writes it, and a command word: 64 bits (10_state.md, 30_encoding.md R90). -/
abbrev Word := BitVec 64

/-- A count of CLK cycles in a PWM counter register: REG_W = 32 bits (00_scope.md R6). -/
abbrev Count := BitVec 32

/-- The DDS chip's frequency word (00_scope.md R15). -/
abbrev FreqWord := BitVec 28

/-- The DDS chip's phase word (00_scope.md R15). -/
abbrev PhaseWord := BitVec 12

/-- One word on the serial port, and the chip's configuration word (20_memory.md R73, 10_state.md R39). -/
abbrev SerialWord := BitVec 16

end Sys2Proof
end

