-- ==== Sys2Proof/Config.lean ====
section
/-! DEFINITION. The implementation parameters of 00_scope.md R6. The spec gives the OPEN ones no value, so the
values of this machine are opaque constants: no proof can see them. The constraints R6 puts on them hold by the
way they are put together. DESIGN CHOICE (log entry 19), safe. -/

namespace Sys2Proof

/-- REG_MAX, the largest counter register value (00_scope.md R6). -/
abbrev regMax : Nat := 4294967295

/-- PWM_SNAPSHOT_MODE: where the derived values of a PWM update are stored (00_scope.md R6, 41_pwm.md R140). -/
inductive SnapshotMode where
  | writeback
  | prevOnly
deriving DecidableEq, Repr, Inhabited

/-- A declared minimum and maximum of a PWM request (00_scope.md R6). -/
structure Limits where
  lo : Word
  hi : Word
deriving DecidableEq, Repr, Inhabited

/-- DDS_FMIN[k] and DDS_FMAX[k] for one waveform kind k (00_scope.md R6). -/
structure FreqLimits where
  lo : FreqWord
  hi : FreqWord
deriving DecidableEq, Repr, Inhabited

/-- The parameters of 00_scope.md R6, by the spec's names. -/
structure Params where
  /-- CLK, the PWM counter clock in Hz. -/
  clk          : Count
  /-- FREQ_MIN, FREQ_MAX, in deci-Hz. -/
  freq         : Limits
  /-- DUTY_MIN, DUTY_MAX, per mille. -/
  duty         : Limits
  /-- TH_MIN, TH_MAX, in ns. -/
  th           : Limits
  /-- TL_MIN, TL_MAX, in ns. -/
  tl           : Limits
  /-- PWM_SNAPSHOT_MODE. -/
  snapshotMode : SnapshotMode
  /-- DDS_FMIN[DC], DDS_FMAX[DC]. -/
  ddsDc        : FreqLimits
  /-- DDS_FMIN[TRIANGLE], DDS_FMAX[TRIANGLE]. -/
  ddsTriangle  : FreqLimits
  /-- DDS_FMIN[SINE], DDS_FMAX[SINE]. -/
  ddsSine      : FreqLimits
  /-- DDS_CHANNEL_ID. -/
  channelId    : Word
  /-- BLOCK_BASE, the host address of register offset 0. -/
  blockBase    : Nat
deriving DecidableEq, Repr, Inhabited

namespace Config

/-- CLK - 1, so that CLK takes every value of 1..2^32-1 and no other. -/
opaque clkPred : Fin 4294967295
/-- Two bounds of the PWM frequency, in no order: FREQ_MIN is the lesser, FREQ_MAX the greater. -/
opaque freqBounds : Word × Word
/-- Two bounds of the PWM duty, each within 0..1000, in no order. -/
opaque dutyBounds : Fin 1001 × Fin 1001
/-- Two bounds of the PWM high time, in no order. -/
opaque thBounds : Word × Word
/-- Two bounds of the PWM low time, in no order. -/
opaque tlBounds : Word × Word
/-- PWM_SNAPSHOT_MODE of this machine (92_eei_decisions.md D12: an OPEN parameter with a default). -/
opaque snapshotMode : SnapshotMode
/-- Two bounds of the DDS frequency word for kind DC, in no order. -/
opaque ddsDcBounds : FreqWord × FreqWord
/-- Two bounds of the DDS frequency word for kind TRIANGLE, in no order. -/
opaque ddsTriangleBounds : FreqWord × FreqWord
/-- Two bounds of the DDS frequency word for kind SINE, in no order. -/
opaque ddsSineBounds : FreqWord × FreqWord
/-- DDS_CHANNEL_ID. -/
opaque channelId : Word
/-- BLOCK_BASE divided by 0x200 (R6: BLOCK_BASE is a multiple of 0x200). -/
opaque blockIndex : Nat

/-- The lesser of two words as the minimum, the greater as the maximum: every pair with MIN <= MAX arises. -/
def limitsOf (a b : Nat) : Limits where
  lo := BitVec.ofNat 64 (min a b)
  hi := BitVec.ofNat 64 (max a b)

/-- The same for a pair of DDS frequency words. -/
def freqLimitsOf (b : FreqWord × FreqWord) : FreqLimits where
  lo := BitVec.ofNat 28 (min b.1.toNat b.2.toNat)
  hi := BitVec.ofNat 28 (max b.1.toNat b.2.toNat)

/-- The parameters of this machine: unknown, within the constraints of 00_scope.md R6. -/
def params : Params where
  clk          := BitVec.ofNat 32 (clkPred.val + 1)
  freq         := limitsOf freqBounds.1.toNat freqBounds.2.toNat
  duty         := limitsOf dutyBounds.1.val dutyBounds.2.val
  th           := limitsOf thBounds.1.toNat thBounds.2.toNat
  tl           := limitsOf tlBounds.1.toNat tlBounds.2.toNat
  snapshotMode := snapshotMode
  ddsDc        := freqLimitsOf ddsDcBounds
  ddsTriangle  := freqLimitsOf ddsTriangleBounds
  ddsSine      := freqLimitsOf ddsSineBounds
  channelId    := channelId
  blockBase    := 0x200 * blockIndex

/-- The parameter set TP1 of 95_test_vectors.md, for tests; TP1 names no channel id and no base, 0 stands for both.
No definition of the machine uses it. DESIGN CHOICE (log entry 20), safe. -/
def tp1 : Params where
  clk          := 80000000#32
  freq         := ⟨1#64, 800000000#64⟩
  duty         := ⟨0#64, 1000#64⟩
  th           := ⟨0#64, 60000000000#64⟩
  tl           := ⟨0#64, 60000000000#64⟩
  snapshotMode := .writeback
  ddsDc        := ⟨0#28, 0xFFFFFFF#28⟩
  ddsTriangle  := ⟨0#28, 0xFFFFFFF#28⟩
  ddsSine      := ⟨0#28, 0xFFFFFFF#28⟩
  channelId    := 0#64
  blockBase    := 0

end Config

end Sys2Proof
end

