-- ==== Sys2Proof/Syntax.lean ====
section
/-! DEFINITION. The command set: one constructor per row of spec/opcode_table.json (30_encoding.md R92), and the
waveform kinds a command can name. -/

namespace Sys2Proof

/-- The waveform kinds of 30_encoding.md R99. The code 3 is illegal and has no constructor. -/
inductive Kind where
  | dc
  | triangle
  | sine
deriving DecidableEq, Repr, Inhabited

/-- The twelve commands of 30_encoding.md R92. Data operands are not in the command word (R91). -/
inductive Instr where
  /-- NOP (40_dispatch.md R121). -/
  | nop
  /-- PWM_UPDATE with its `force` argument (41_pwm.md R130). -/
  | pwmUpdate (force : Bool)
  /-- PWM_RUN (41_pwm.md R143). -/
  | pwmRun
  /-- PWM_STOP (41_pwm.md R144). -/
  | pwmStop
  /-- DDS_SET_FREQ (42_dds.md R172). -/
  | ddsSetFreq
  /-- DDS_SET_PHASE (42_dds.md R173). -/
  | ddsSetPhase
  /-- DDS_SET_WAVEFORM with its kind (42_dds.md R174). -/
  | ddsSetWaveform (kind : Kind)
  /-- DDS_STOP (42_dds.md R175). -/
  | ddsStop
  /-- DDS_SUSPEND (42_dds.md R176). -/
  | ddsSuspend
  /-- DDS_RESUME (42_dds.md R177). -/
  | ddsResume
  /-- BUS_TRYLOCK (43_buslock.md R210). -/
  | busTrylock
  /-- BUS_UNLOCK (43_buslock.md R211). -/
  | busUnlock
deriving DecidableEq, Repr, Inhabited

end Sys2Proof
end

