-- ==== Sys2Proof/WellFormed.lean ====
section
/-! DEFINITION. What is well formed: a command word (the four conditions of 30_encoding.md R93, written from the
rule and not from the decoder) and a parameter set (the constraints of 00_scope.md R6). A term of Instr is well
formed by its type: its one restricted operand, the waveform kind, has no constructor for the illegal code. -/

namespace Sys2Proof

/-- The field OP of a command word (30_encoding.md R90). -/
abbrev opOf (c : Word) : BitVec 8 := c.extractLsb' 0 8
/-- The field ARG of a command word (30_encoding.md R90). -/
abbrev argOf (c : Word) : BitVec 8 := c.extractLsb' 8 8
/-- The field RSV of a command word (30_encoding.md R90). -/
abbrev rsvOf (c : Word) : BitVec 48 := c.extractLsb' 16 48

/-- The twelve OP values of 30_encoding.md R92. -/
def assignedOps : List (BitVec 8) :=
  [0x00, 0x01, 0x02, 0x03, 0x10, 0x11, 0x12, 0x13, 0x14, 0x15, 0x20, 0x21]

/-- The ARG bits that 30_encoding.md R91 says must be 0 for this OP. -/
def argMustBeZero (op : BitVec 8) : BitVec 8 :=
  if op = 0x01 then 0xFE else if op = 0x12 then 0xFC else 0xFF

/-- 30_encoding.md R93.1, negated: OP is one of the twelve values. -/
abbrev opAssigned (c : Word) : Prop := opOf c ∈ assignedOps
/-- 30_encoding.md R93.2, negated: RSV is 0. -/
abbrev rsvClear (c : Word) : Prop := rsvOf c = 0
/-- 30_encoding.md R93.3, negated: no must-be-zero ARG bit is 1. -/
abbrev argClear (c : Word) : Prop := argOf c &&& argMustBeZero (opOf c) = 0
/-- 30_encoding.md R93.4, negated: not DDS_SET_WAVEFORM with kind 3. -/
abbrev kindLegal (c : Word) : Prop := ¬(opOf c = 0x12 ∧ (argOf c).extractLsb' 0 2 = 3)

/-- A legal command word: none of the conditions of 30_encoding.md R93 holds. -/
abbrev LegalWord (c : Word) : Prop := opAssigned c ∧ rsvClear c ∧ argClear c ∧ kindLegal c

/-- MIN <= MAX (00_scope.md R6). -/
abbrev Limits.WellFormed (l : Limits) : Prop := l.lo.toNat ≤ l.hi.toNat
/-- DDS_FMIN[k] <= DDS_FMAX[k] (00_scope.md R6). -/
abbrev FreqLimits.WellFormed (l : FreqLimits) : Prop := l.lo.toNat ≤ l.hi.toNat

/-- The constraints 00_scope.md R6 puts on the parameters. -/
abbrev Params.WellFormed (p : Params) : Prop :=
  1 ≤ p.clk.toNat ∧ p.freq.WellFormed ∧ p.duty.WellFormed ∧ p.duty.hi.toNat ≤ 1000 ∧ p.th.WellFormed ∧
  p.tl.WellFormed ∧ p.ddsDc.WellFormed ∧ p.ddsTriangle.WellFormed ∧ p.ddsSine.WellFormed ∧ p.blockBase % 0x200 = 0

end Sys2Proof
end

