-- ==== Sys2Proof/Decode.lean ====
section
/-! DEFINITION. The decoder of command words (30_encoding.md R90 to R94), total and rejecting by name; after it the
encoder, the opcode table's rows, and the byte lanes of a register (20_memory.md R62). -/

namespace Sys2Proof

/-- Why a word is no command: the conditions of 30_encoding.md R93, and a byte string that is no 64-bit word (R90).
DESIGN CHOICE (log entry 16), safe: the names, and which of several reasons is given; all have the effect of R122. -/
inductive DecodeError where
  | unassignedOp
  | rsvNotZero
  | argNotZero
  | kindThree
  | wrongLength
deriving DecidableEq, Repr

/-- The waveform kind of a 2-bit code (30_encoding.md R99). -/
def kindOfCode (k : BitVec 2) : Option Kind :=
  match k.toNat with
  | 0 => some .dc
  | 1 => some .triangle
  | 2 => some .sine
  | _ => none

/-- The 2-bit code of a waveform kind (30_encoding.md R99). -/
def Kind.code : Kind → BitVec 2
  | .dc => 0
  | .triangle => 1
  | .sine => 2

/-- A command whose ARG must be 0 (30_encoding.md R91, last row). -/
def decodeNoArg (arg : BitVec 8) (i : Instr) : Except DecodeError Instr :=
  if arg = 0 then .ok i else .error .argNotZero

/-- PWM_UPDATE: ARG[0] is `force`, ARG[7:1] must be 0 (30_encoding.md R91). -/
def decodePwmUpdate (arg : BitVec 8) : Except DecodeError Instr :=
  if arg.extractLsb' 1 7 = 0 then .ok (.pwmUpdate (arg.getLsbD 0)) else .error .argNotZero

/-- DDS_SET_WAVEFORM: ARG[1:0] is the kind, 3 is illegal, ARG[7:2] must be 0 (30_encoding.md R91, R93). -/
def decodeWaveform (arg : BitVec 8) : Except DecodeError Instr :=
  if arg.extractLsb' 2 6 = 0 then
    match kindOfCode (arg.extractLsb' 0 2) with
    | some k => .ok (.ddsSetWaveform k)
    | none => .error .kindThree
  else .error .argNotZero

/-- The opcode map of 30_encoding.md R92, on OP and ARG. -/
def decodeOp (op arg : BitVec 8) : Except DecodeError Instr :=
  match op.toNat with
  | 0x00 => decodeNoArg arg .nop
  | 0x01 => decodePwmUpdate arg
  | 0x02 => decodeNoArg arg .pwmRun
  | 0x03 => decodeNoArg arg .pwmStop
  | 0x10 => decodeNoArg arg .ddsSetFreq
  | 0x11 => decodeNoArg arg .ddsSetPhase
  | 0x12 => decodeWaveform arg
  | 0x13 => decodeNoArg arg .ddsStop
  | 0x14 => decodeNoArg arg .ddsSuspend
  | 0x15 => decodeNoArg arg .ddsResume
  | 0x20 => decodeNoArg arg .busTrylock
  | 0x21 => decodeNoArg arg .busUnlock
  | _ => .error .unassignedOp

/-- Decoding of a command word: a command or the reason it is illegal (30_encoding.md R93, R94). -/
def decode (c : Word) : Except DecodeError Instr :=
  if c.extractLsb' 16 48 = 0 then decodeOp (c.extractLsb' 0 8) (c.extractLsb' 8 8) else .error .rsvNotZero

/-- OP of a command (30_encoding.md R92). -/
def Instr.op : Instr → BitVec 8
  | .nop => 0x00
  | .pwmUpdate _ => 0x01
  | .pwmRun => 0x02
  | .pwmStop => 0x03
  | .ddsSetFreq => 0x10
  | .ddsSetPhase => 0x11
  | .ddsSetWaveform _ => 0x12
  | .ddsStop => 0x13
  | .ddsSuspend => 0x14
  | .ddsResume => 0x15
  | .busTrylock => 0x20
  | .busUnlock => 0x21

/-- ARG of a command (30_encoding.md R91). -/
def Instr.arg : Instr → BitVec 8
  | .pwmUpdate force => 0#7 ++ BitVec.ofBool force
  | .ddsSetWaveform k => 0#6 ++ k.code
  | .nop => 0
  | .pwmRun => 0
  | .pwmStop => 0
  | .ddsSetFreq => 0
  | .ddsSetPhase => 0
  | .ddsStop => 0
  | .ddsSuspend => 0
  | .ddsResume => 0
  | .busTrylock => 0
  | .busUnlock => 0

/-- The command word of a command: RSV, ARG, OP (30_encoding.md R90). -/
def encode (i : Instr) : Word := 0#48 ++ i.arg ++ i.op

/-- A row of the opcode table: the word matches when `word AND mask = pattern`. -/
structure OpcodeRow where
  mnemonic : String
  pattern  : Word
  mask     : Word
deriving DecidableEq, Repr

/-- The rows of spec/opcode_table.json. -/
def opcodeRows : List OpcodeRow :=
  [⟨"NOP",              0x0000000000000000#64, 0xFFFFFFFFFFFFFFFF#64⟩,
   ⟨"PWM_UPDATE",       0x0000000000000001#64, 0xFFFFFFFFFFFFFEFF#64⟩,
   ⟨"PWM_RUN",          0x0000000000000002#64, 0xFFFFFFFFFFFFFFFF#64⟩,
   ⟨"PWM_STOP",         0x0000000000000003#64, 0xFFFFFFFFFFFFFFFF#64⟩,
   ⟨"DDS_SET_FREQ",     0x0000000000000010#64, 0xFFFFFFFFFFFFFFFF#64⟩,
   ⟨"DDS_SET_PHASE",    0x0000000000000011#64, 0xFFFFFFFFFFFFFFFF#64⟩,
   ⟨"DDS_SET_WAVEFORM", 0x0000000000000012#64, 0xFFFFFFFFFFFFFCFF#64⟩,
   ⟨"DDS_STOP",         0x0000000000000013#64, 0xFFFFFFFFFFFFFFFF#64⟩,
   ⟨"DDS_SUSPEND",      0x0000000000000014#64, 0xFFFFFFFFFFFFFFFF#64⟩,
   ⟨"DDS_RESUME",       0x0000000000000015#64, 0xFFFFFFFFFFFFFFFF#64⟩,
   ⟨"BUS_TRYLOCK",      0x0000000000000020#64, 0xFFFFFFFFFFFFFFFF#64⟩,
   ⟨"BUS_UNLOCK",       0x0000000000000021#64, 0xFFFFFFFFFFFFFFFF#64⟩]

/-- The word matches the row's pattern under its mask. -/
abbrev OpcodeRow.Matches (r : OpcodeRow) (c : Word) : Prop := c &&& r.mask = r.pattern

/-- The mnemonic of a command, as spec/opcode_table.json spells it. -/
def Instr.mnemonic : Instr → String
  | .nop => "NOP"
  | .pwmUpdate _ => "PWM_UPDATE"
  | .pwmRun => "PWM_RUN"
  | .pwmStop => "PWM_STOP"
  | .ddsSetFreq => "DDS_SET_FREQ"
  | .ddsSetPhase => "DDS_SET_PHASE"
  | .ddsSetWaveform _ => "DDS_SET_WAVEFORM"
  | .ddsStop => "DDS_STOP"
  | .ddsSuspend => "DDS_SUSPEND"
  | .ddsResume => "DDS_RESUME"
  | .busTrylock => "BUS_TRYLOCK"
  | .busUnlock => "BUS_UNLOCK"

/-- Byte k of a register: bits [8k+7 : 8k], little-endian (20_memory.md R62). -/
def lane (v : Word) (k : Nat) : Byte := v.extractLsb' (8 * k) 8

/-- The eight bytes of a register, the one at the lowest address first (20_memory.md R62). -/
def lanes (v : Word) : List Byte :=
  [lane v 0, lane v 1, lane v 2, lane v 3, lane v 4, lane v 5, lane v 6, lane v 7]

/-- The register whose bytes these are, the one at the lowest address first (20_memory.md R62); none unless there
are eight of them. -/
def ofLanes : List Byte → Option Word
  | [b0, b1, b2, b3, b4, b5, b6, b7] => some (b7 ++ b6 ++ b5 ++ b4 ++ b3 ++ b2 ++ b1 ++ b0)
  | _ => none

/-- Decoding of the bytes of a command word: total on any byte string (30_encoding.md R90: every command is 64 bits). -/
def decodeBytes (bs : List Byte) : Except DecodeError Instr :=
  match ofLanes bs with
  | some c => decode c
  | none => .error .wrongLength

/-- The command word whose low `nbits` bits are those of w and whose other bits are 0. -/
def tableWord (nbits w : Nat) : Word := BitVec.ofNat 64 (w % 2 ^ nbits)

/-- The command the decoder reads from a word numbered as spec/opcode_table.json numbers it, laid out in its byte
lanes first. -/
def decodeTableWord (nbits w : Nat) : Option Instr :=
  match decodeBytes (lanes (tableWord nbits w)) with
  | .ok i => some i
  | .error _ => none

end Sys2Proof
end

