-- ==== Sys2Proof/Machine/Arith.lean ====
section
/-! DEFINITION. The arithmetic of 00_scope.md R9 to R11, on unbounded natural numbers. -/

namespace Sys2Proof.Machine

/-- `rdiv(a, b)`: a / b to the nearest natural, a half rounded up; for b >= 1 (00_scope.md R10). -/
def rdiv (a b : Nat) : Nat := (2 * a + b) / (2 * b)

/-- `clamp(v, lo, hi)` for lo <= hi (00_scope.md R11). -/
def clamp (v lo hi : Nat) : Nat := min (max v lo) hi

/-- `bitlength(n)`: how many bits n takes in binary, 0 for 0 (00_scope.md R11). -/
def bitLength (n : Nat) : Nat := if n = 0 then 0 else Nat.log2 n + 1

end Sys2Proof.Machine
end

