-- ==== Sys2Proof/Machine/State.lean ====
section
/-! DEFINITION. The state of the TDDS-RB (10_state.md R20), the inputs the outside world can give it, the reasons a
step can stop, and the state after reset (70_reset_and_hazards.md R240). Plain data throughout. -/

namespace Sys2Proof.Machine

/-- LAST_BRANCH of STATUS: the branch a PWM_UPDATE took (10_state.md R23, 41_pwm.md R131). -/
inductive Branch where
  | none
  | freq
  | duty
  | high
  | low
deriving DecidableEq, Repr, Inhabited

/-- The stored fields of STATUS (10_state.md R23). STATUS.LOCK is the lock bit itself, `State.lock`. -/
structure Status where
  /-- ILLEGAL, sticky. -/
  illegal       : Bool
  /-- ACCESS_ERR, sticky. -/
  accessErr     : Bool
  /-- DDS_DONE. -/
  ddsDone       : Bool
  /-- LOCK_OK. -/
  lockOk        : Bool
  /-- LAST_BRANCH. -/
  lastBranch    : Branch
  /-- LAST_ILLEGAL_OP. -/
  lastIllegalOp : Byte
deriving DecidableEq, Repr, Inhabited

/-- The four logical fields of the PWM, or their four snapshots (10_state.md R25 to R29). -/
structure Requests where
  /-- `freq`, deci-Hz. -/
  freq : Word
  /-- `duty`, per mille. -/
  duty : Word
  /-- `th`, ns. -/
  th   : Word
  /-- `tl`, ns. -/
  tl   : Word
deriving DecidableEq, Repr, Inhabited

/-- The three physical registers of the PWM, or their committed copies (10_state.md R30, R31). -/
structure Counts where
  /-- `period_register`. -/
  period : Count
  /-- `th_register`. -/
  high   : Count
  /-- `tl_register`. -/
  low    : Count
deriving DecidableEq, Repr, Inhabited

/-- The PWM engine's registers (10_state.md R24 to R32). -/
structure Pwm where
  /-- PWM_CTRL.LINKED. -/
  linked    : Bool
  /-- PWM_CTRL.RUNNING. -/
  running   : Bool
  /-- The requests PWM_FREQ, PWM_DUTY, PWM_TH, PWM_TL. -/
  req       : Requests
  /-- The snapshots PWM_FREQ_PREV, PWM_DUTY_PREV, PWM_TH_PREV, PWM_TL_PREV. -/
  prev      : Requests
  /-- PWM_PERIOD_REG, PWM_TH_REG, PWM_TL_REG. -/
  regs      : Counts
  /-- PWM_PERIOD_REG_PREV, PWM_TH_REG_PREV, PWM_TL_REG_PREV. -/
  committed : Counts
  /-- PWM_RES_BITS. -/
  resBits   : Word
deriving DecidableEq, Repr, Inhabited

/-- The DDS channel's registers (10_state.md R35 to R41). RUNSTATE and RUNNING are functions of `ctrl` (42_dds.md
R178) and are not stored. -/
structure Dds where
  /-- DDS_FREQ. -/
  freq     : FreqWord
  /-- DDS_FREQ_PREV. -/
  freqPrev : FreqWord
  /-- DDS_PHASE. -/
  phase    : PhaseWord
  /-- DDS_STATE.KIND. -/
  kind     : Kind
  /-- DDS_CTRL, the copy of the chip's configuration word. -/
  ctrl     : SerialWord
  /-- DDS_FREQ0, the word last sent to FREQ0. -/
  freq0    : FreqWord
  /-- DDS_FREQ1, the word last sent to FREQ1. -/
  freq1    : FreqWord
  /-- DDS_PHASE0, the word last sent to PHASE0. -/
  phase0   : PhaseWord
  /-- DDS_PHASE1, the word last sent to PHASE1. -/
  phase1   : PhaseWord
deriving DecidableEq, Repr, Inhabited

/-- A register of the PWM counter hardware (20_memory.md R74). -/
inductive CounterReg where
  | period
  | high
  | low
deriving DecidableEq, Repr, Inhabited

/-- An event on an output port (20_memory.md R73 to R75). -/
inductive Event where
  /-- `Serial(w)`: one word to the DDS chip. -/
  | serial (w : SerialWord)
  /-- `Commit(list)`: counter registers taken all at once. -/
  | commit (pairs : List (CounterReg × Count))
  /-- `Enable(b)`: start or stop of the counter. -/
  | enable (on : Bool)
deriving DecidableEq, Repr

/-- Where a HOST access goes: a byte offset from BLOCK_BASE (30_encoding.md R95) or an absolute host address
(20_memory.md R60). DESIGN CHOICE (log entry 10), safe: both forms, and addresses without an upper bound. -/
inductive HostAddr where
  | block (offset : Nat)
  | absolute (address : Nat)
deriving DecidableEq, Repr

/-- One thing the outside world does to the block: a HOST access of some number of bytes (20_memory.md R61 to R64), an
ENV_BUS step (20_memory.md R76), or an assertion of the reset input (70_reset_and_hazards.md R240). -/
inductive Stimulus where
  | read (addr : HostAddr) (bytes : Nat)
  | write (addr : HostAddr) (bytes : Nat) (value : Word)
  | envAcquire
  | envRelease
  | reset
deriving DecidableEq, Repr

/-- The state of the model. The first seven fields are the spec's (10_state.md R20, 20_memory.md R76); the last three
are the model's own. -/
structure State where
  /-- STATUS. -/
  status   : Status
  /-- LOCK, the bus lock bit (10_state.md R43). -/
  lock     : Bool
  /-- The PWM engine. -/
  pwm      : Pwm
  /-- The DDS channel. -/
  dds      : Dds
  /-- The event history since reset, oldest first. -/
  events   : List Event
  /-- The ghost bit `env_holds` of ENV_BUS (20_memory.md R76). -/
  envHolds : Bool
  /-- DESIGN CHOICE (log entry 1), safe: the parameters of 00_scope.md R6, no state of the spec, carried here because
  the step takes no other argument. No step writes them. -/
  cfg      : Params
  /-- DESIGN CHOICE (log entry 2), safe: what the outside world does, next first. A statement about every state is one
  about every schedule (U9, U10). -/
  pending  : List Stimulus
  /-- DESIGN CHOICE (log entry 5), safe: the value the block answered to the latest HOST read; none before the first. -/
  readBack : Option Word
deriving DecidableEq, Repr

/-- Why the machine stops. The block itself never does (60_exceptions.md R220). -/
inductive Fault where
  /-- Raised by a HOST access outside the 512-byte window, which the block does not answer: "the platform decides"
  (20_memory.md R60, vector AE9). Safe: nothing can be proved of what follows (log entry 6). -/
  | outsideWindow
deriving DecidableEq, Repr

/-- Why a command has no meaning. -/
inductive Refusal where
  /-- Raised by a command that the model gives no meaning; no command of this model raises it. Safe. -/
  | notModelled (mnemonic : String)
deriving DecidableEq, Repr

/-- STATUS after reset: 0 in every field (70_reset_and_hazards.md R240). -/
def Status.reset : Status where
  illegal := false
  accessErr := false
  ddsDone := false
  lockOk := false
  lastBranch := .none
  lastIllegalOp := 0

/-- All four requests, or snapshots, 0. -/
def Requests.zero : Requests := ⟨0, 0, 0, 0⟩

/-- All three counts 0. -/
def Counts.zero : Counts := ⟨0, 0, 0⟩

/-- The PWM engine after reset: LINKED = 1, the rest 0 (70_reset_and_hazards.md R240). -/
def Pwm.reset : Pwm where
  linked := true
  running := false
  req := .zero
  prev := .zero
  regs := .zero
  committed := .zero
  resBits := 0

/-- The DDS channel after reset: KIND = SINE, DDS_CTRL = 0x2100, the rest 0 (70_reset_and_hazards.md R240). -/
def Dds.reset : Dds where
  freq := 0
  freqPrev := 0
  phase := 0
  kind := .sine
  ctrl := 0x2100
  freq0 := 0
  freq1 := 0
  phase0 := 0
  phase1 := 0

/-- The machine after reset (70_reset_and_hazards.md R240, R241). The parameters are this machine's unknown ones
(log entry 1); nothing is pending (log entry 7) and nothing has been read (log entry 5). -/
def State.reset : State where
  status := .reset
  lock := false
  pwm := .reset
  dds := .reset
  events := []
  envHolds := false
  cfg := Config.params
  pending := []
  readBack := none

end Sys2Proof.Machine
end

