-- ==== Sys2Proof/Machine/Operands.lean ====
section
/-! DEFINITION. How operands are read and formed: the fields of DDS_CTRL (10_state.md R39), the serial words of
30_encoding.md R96 to R98, the kind's limits (10_state.md R42), and the shadow a selector names (R40, R41).
UNVERIFIED (log entry 11), unsafe: the bit places are the spec's general knowledge of the AD9833 class (GK1 to GK5). -/

namespace Sys2Proof.Machine

/-- Bit 11 of DDS_CTRL, FSELECT (10_state.md R39). -/
abbrev bitFselect : Nat := 11
/-- Bit 10 of DDS_CTRL, PSELECT (10_state.md R39). -/
abbrev bitPselect : Nat := 10
/-- Bit 8 of DDS_CTRL, RESET (10_state.md R39). -/
abbrev bitReset : Nat := 8
/-- Bit 7 of DDS_CTRL, SLEEP1 (10_state.md R39). -/
abbrev bitSleep1 : Nat := 7
/-- Bit 1 of DDS_CTRL, MODE (10_state.md R39). -/
abbrev bitMode : Nat := 1

/-- A configuration word with bit i set to b and every other bit kept. -/
def setBit (w : SerialWord) (i : Nat) (b : Bool) : SerialWord :=
  if b then w ||| (1#16 <<< i) else w &&& ~~~(1#16 <<< i)

/-- The configuration word's field FSELECT: which of FREQ0 and FREQ1 is live. -/
def fselect (ctrl : SerialWord) : Bool := ctrl.getLsbD bitFselect
/-- The configuration word's field PSELECT: which of PHASE0 and PHASE1 is live. -/
def pselect (ctrl : SerialWord) : Bool := ctrl.getLsbD bitPselect
/-- The configuration word's field RESET. -/
def chipReset (ctrl : SerialWord) : Bool := ctrl.getLsbD bitReset
/-- The configuration word's field SLEEP1. -/
def chipSleep (ctrl : SerialWord) : Bool := ctrl.getLsbD bitSleep1
/-- The configuration word's field MODE. -/
def chipMode (ctrl : SerialWord) : Bool := ctrl.getLsbD bitMode

/-- The run state of the DDS channel (42_dds.md R178). -/
inductive RunState where
  | stopped
  | suspended
  | running
deriving DecidableEq, Repr

/-- RUNSTATE as a function of the configuration word (42_dds.md R178). -/
def runState (ctrl : SerialWord) : RunState :=
  if chipReset ctrl then .stopped else if chipSleep ctrl then .suspended else .running

/-- The MODE bit a kind sets: 0 for SINE, 1 for TRIANGLE and DC (42_dds.md R174). -/
def modeOf : Kind → Bool
  | .sine => false
  | .triangle => true
  | .dc => true

/-- The frequency limits of a kind (00_scope.md R6, 10_state.md R42). -/
def kindLimits (p : Params) : Kind → FreqLimits
  | .dc => p.ddsDc
  | .triangle => p.ddsTriangle
  | .sine => p.ddsSine

/-- `FREG(i)`: the prefix of a data word for FREQ0 (false) or FREQ1 (true) (30_encoding.md R97). -/
def freqPrefix (i : Bool) : SerialWord := if i then 0x8000 else 0x4000

/-- The first data word of a frequency: the low 14 bits (30_encoding.md R97). -/
def freqWordLo (i : Bool) (v : FreqWord) : SerialWord := freqPrefix i ||| (v.extractLsb' 0 14).setWidth 16

/-- The second data word of a frequency: the high 14 bits (30_encoding.md R97). -/
def freqWordHi (i : Bool) (v : FreqWord) : SerialWord := freqPrefix i ||| (v.extractLsb' 14 14).setWidth 16

/-- `PREG(i)`: the prefix of a data word for PHASE0 (false) or PHASE1 (true) (30_encoding.md R98). -/
def phasePrefix (i : Bool) : SerialWord := if i then 0xE000 else 0xC000

/-- The data word of a phase (30_encoding.md R98). -/
def phaseWord (i : Bool) (p : PhaseWord) : SerialWord := phasePrefix i ||| p.setWidth 16

/-- The frequency shadow `DDS_FREQ<i>` (10_state.md R40). -/
def Dds.freqShadow (d : Dds) (i : Bool) : FreqWord := if i then d.freq1 else d.freq0

/-- The phase shadow `DDS_PHASE<i>` (10_state.md R41). -/
def Dds.phaseShadow (d : Dds) (i : Bool) : PhaseWord := if i then d.phase1 else d.phase0

/-- `R[DDS_FREQ<i>] <- v`. -/
def Dds.setFreqShadow (d : Dds) (i : Bool) (v : FreqWord) : Dds :=
  if i then { d with freq1 := v } else { d with freq0 := v }

/-- `R[DDS_PHASE<i>] <- p`. -/
def Dds.setPhaseShadow (d : Dds) (i : Bool) (p : PhaseWord) : Dds :=
  if i then { d with phase1 := p } else { d with phase0 := p }

/-- The offset in the window that a HOST access names, if it names one: 0x000 to 0x1FF from BLOCK_BASE
(20_memory.md R60). -/
def HostAddr.offset? (p : Params) : HostAddr → Option Nat
  | .block off => if off < 0x200 then some off else none
  | .absolute a => if p.blockBase ≤ a ∧ a - p.blockBase < 0x200 then some (a - p.blockBase) else none

/-- An admitted access: exactly 8 bytes at a multiple of 8 (20_memory.md R61). -/
abbrev Admitted (off bytes : Nat) : Prop := bytes = 8 ∧ off % 8 = 0

end Sys2Proof.Machine
end

