-- ==== Sys2Proof/Machine/Flags.lean ====
section
/-! DEFINITION. The registers made of fields, as the HOST reads them: STATUS (10_state.md R23), PWM_CTRL (R24) and
DDS_STATE (R38); and the updates of the STATUS fields. -/

namespace Sys2Proof.Machine

/-- The code of LAST_BRANCH (10_state.md R23). -/
def Branch.code : Branch → BitVec 3
  | .none => 0
  | .freq => 1
  | .duty => 2
  | .high => 3
  | .low => 4

/-- The code of RUNSTATE (10_state.md R38). -/
def RunState.code : RunState → BitVec 2
  | .stopped => 0
  | .suspended => 1
  | .running => 2

/-- STATUS as the HOST reads it, from bit 63 down (10_state.md R23). -/
def statusWord (s : State) : Word :=
  0#40 ++ s.status.lastIllegalOp ++ 0#5 ++ s.status.lastBranch.code ++ 0#3 ++ BitVec.ofBool s.lock ++
    BitVec.ofBool s.status.lockOk ++ BitVec.ofBool s.status.ddsDone ++ BitVec.ofBool s.status.accessErr ++
    BitVec.ofBool s.status.illegal

/-- PWM_CTRL as the HOST reads it, from bit 63 down (10_state.md R24). -/
def pwmCtrlWord (p : Pwm) : Word := 0#62 ++ BitVec.ofBool p.running ++ BitVec.ofBool p.linked

/-- DDS_STATE as the HOST reads it, from bit 63 down (10_state.md R38, 42_dds.md R178). -/
def ddsStateWord (d : Dds) : Word :=
  0#58 ++ (runState d.ctrl).code ++ 0#1 ++ BitVec.ofBool (decide (runState d.ctrl = .running)) ++ d.kind.code

/-- A HOST write to STATUS: W1C of ILLEGAL (bit 0) and ACCESS_ERR (bit 1), nothing else (10_state.md R23). -/
def Status.writeOneToClear (st : Status) (v : Word) : Status :=
  { st with illegal := st.illegal && !v.getLsbD 0, accessErr := st.accessErr && !v.getLsbD 1 }

/-- `R[STATUS].LAST_BRANCH <- b`. -/
def setLastBranch (b : Branch) (s : State) : State := { s with status := { s.status with lastBranch := b } }

/-- `R[STATUS].DDS_DONE <- b`. -/
def setDdsDone (b : Bool) (s : State) : State := { s with status := { s.status with ddsDone := b } }

/-- `R[STATUS].LOCK_OK <- b`. -/
def setLockOk (b : Bool) (s : State) : State := { s with status := { s.status with lockOk := b } }

end Sys2Proof.Machine
end

