-- ==== Sys2Proof/Machine/Ops.lean ====
section
/-! DEFINITION. The operations several commands and accesses share: the output ports (20_memory.md R73 to R75), the
lock primitives (43_buslock.md R212), the two error conditions (40_dispatch.md R122, 60_exceptions.md R229), and
reset (70_reset_and_hazards.md R240). The block has no trap entry and no return from one (60_exceptions.md R220,
R223): raising an error sets STATUS bits and the machine goes on. -/

namespace Sys2Proof.Machine

/-- Appends one event to the event history. -/
def emit (e : Event) (s : State) : State := { s with events := s.events ++ [e] }

/-- `SerialWrite(w)` (20_memory.md R73). -/
def serialWrite (w : SerialWord) (s : State) : State := emit (.serial w) s

/-- `CounterCommit(list)` (20_memory.md R74). -/
def counterCommit (pairs : List (CounterReg × Count)) (s : State) : State := emit (.commit pairs) s

/-- `CounterEnable(b)` (20_memory.md R75). -/
def counterEnable (b : Bool) (s : State) : State := emit (.enable b) s

/-- `TryAcquire()`: whether the lock was free, and the state after (43_buslock.md R212). -/
def tryAcquire (s : State) : Bool × State := if s.lock then (false, s) else (true, { s with lock := true })

/-- `Release()` (43_buslock.md R212). -/
def release (s : State) : State := { s with lock := false }

/-- `raise IllegalCommand(op)` (40_dispatch.md R122). -/
def raiseIllegalCommand (op : Byte) (s : State) : State :=
  { s with status := { s.status with illegal := true, lastIllegalOp := op } }

/-- `raise AccessError(off)` (60_exceptions.md R229). -/
def raiseAccessError (s : State) : State := { s with status := { s.status with accessErr := true } }

/-- The value the block answers to a HOST read (20_memory.md R63). -/
def answerRead (v : Word) (s : State) : State := { s with readBack := some v }

/-- The reset input: every register, the event history and `env_holds` at the reset value (70_reset_and_hazards.md
R240). DESIGN CHOICE (log entry 8), safe: the parameters and what is still pending are no state of the block and
stay; the latest read answer is forgotten. -/
def resetBlock (s : State) : State := { State.reset with cfg := s.cfg, pending := s.pending }

end Sys2Proof.Machine
end

