-- ==== Sys2Proof/Machine/Dds.lean ====
section
/-! DEFINITION. The DDS channel: the lock bracket, the double-buffered frequency and phase updates, the waveform and
the run control (42_dds.md). -/

namespace Sys2Proof.Machine

/-- `dds_command(body)`: the lock bracket, and the drop when the lock is held (42_dds.md R170, R171). -/
def ddsCommand (body : State → State) (s : State) : State :=
  match tryAcquire s with
  | (false, s0) => setDdsDone false s0
  | (true, s1) => setDdsDone true (release (body s1))

/-- `R[DDS_CTRL]` takes a new value and is sent (42_dds.md R172 to R177). -/
def sendCtrl (ctrl : SerialWord) (s : State) : State :=
  serialWrite ctrl { s with dds := { s.dds with ctrl := ctrl } }

/-- The frequency word DDS_SET_FREQ writes: the request clamped to the kind's limits (42_dds.md R172). -/
def clampedFreq (cfg : Params) (d : Dds) : FreqWord :=
  BitVec.ofNat 28 (clamp d.freq.toNat (kindLimits cfg d.kind).lo.toNat (kindLimits cfg d.kind).hi.toNat)

/-- The body of DDS_SET_FREQ (42_dds.md R172). -/
def setFreqBody (s : State) : State :=
  let v := clampedFreq s.cfg s.dds
  let i := !fselect s.dds.ctrl
  let s1 := serialWrite (freqWordHi i v) (serialWrite (freqWordLo i v) s)
  let s2 := sendCtrl (setBit s.dds.ctrl bitFselect i) { s1 with dds := s1.dds.setFreqShadow i v }
  { s2 with dds := { s2.dds with freq := v, freqPrev := v } }

/-- The body of DDS_SET_PHASE (42_dds.md R173). -/
def setPhaseBody (s : State) : State :=
  let p := s.dds.phase
  let i := !pselect s.dds.ctrl
  let s1 := serialWrite (phaseWord i p) s
  sendCtrl (setBit s.dds.ctrl bitPselect i) { s1 with dds := s1.dds.setPhaseShadow i p }

/-- The body of DDS_SET_WAVEFORM (42_dds.md R174). -/
def setWaveformBody (k : Kind) (s : State) : State :=
  sendCtrl (setBit s.dds.ctrl bitMode (modeOf k)) { s with dds := { s.dds with kind := k } }

/-- The body of DDS_STOP (42_dds.md R175). -/
def stopBody (s : State) : State := sendCtrl (setBit s.dds.ctrl bitReset true) s

/-- The body of DDS_SUSPEND (42_dds.md R176). -/
def suspendBody (s : State) : State := sendCtrl (setBit s.dds.ctrl bitSleep1 true) s

/-- The body of DDS_RESUME (42_dds.md R177). -/
def resumeBody (s : State) : State :=
  sendCtrl (setBit (setBit s.dds.ctrl bitReset false) bitSleep1 false) s

/-- DDS_SET_FREQ (42_dds.md R172). -/
def execDdsSetFreq (s : State) : Host.Outcome State Fault Refusal := .next (ddsCommand setFreqBody s)

/-- DDS_SET_PHASE (42_dds.md R173). -/
def execDdsSetPhase (s : State) : Host.Outcome State Fault Refusal := .next (ddsCommand setPhaseBody s)

/-- DDS_SET_WAVEFORM (42_dds.md R174). -/
def execDdsSetWaveform (k : Kind) (s : State) : Host.Outcome State Fault Refusal :=
  .next (ddsCommand (setWaveformBody k) s)

/-- DDS_STOP (42_dds.md R175). -/
def execDdsStop (s : State) : Host.Outcome State Fault Refusal := .next (ddsCommand stopBody s)

/-- DDS_SUSPEND (42_dds.md R176). -/
def execDdsSuspend (s : State) : Host.Outcome State Fault Refusal := .next (ddsCommand suspendBody s)

/-- DDS_RESUME (42_dds.md R177). -/
def execDdsResume (s : State) : Host.Outcome State Fault Refusal := .next (ddsCommand resumeBody s)

end Sys2Proof.Machine
end

