-- ==== Sys2Proof/Machine/Lock.lean ====
section
/-! DEFINITION. The shared bus lock: BUS_TRYLOCK and BUS_UNLOCK (43_buslock.md), and the steps of ENV_BUS
(20_memory.md R76). -/

namespace Sys2Proof.Machine

/-- BUS_TRYLOCK: LOCK_OK says whether the lock was taken (43_buslock.md R210). -/
def execBusTrylock (s : State) : Host.Outcome State Fault Refusal :=
  .next (match tryAcquire s with | (ok, s1) => setLockOk ok s1)

/-- BUS_UNLOCK: the lock is cleared whoever took it; `env_holds` stays (43_buslock.md R211). -/
def execBusUnlock (s : State) : Host.Outcome State Fault Refusal := .next (release s)

/-- ENV_ACQUIRE, enabled when LOCK = 0 (20_memory.md R76). DESIGN CHOICE (log entry 4), safe: where it is not enabled
the entry of `pending` does nothing. -/
def envAcquire (s : State) : State := if s.lock then s else { s with lock := true, envHolds := true }

/-- ENV_RELEASE, enabled when env_holds = 1 (20_memory.md R76). DESIGN CHOICE (log entry 4), safe: where it is not
enabled the entry of `pending` does nothing. -/
def envRelease (s : State) : State := if s.envHolds then { s with lock := false, envHolds := false } else s

end Sys2Proof.Machine
end

