-- ==== Sys2Proof/Machine/Nop.lean ====
section
/-! DEFINITION. The family of one: NOP (40_dispatch.md R121). -/

namespace Sys2Proof.Machine

/-- NOP: nothing (40_dispatch.md R121). -/
def execNop (s : State) : Host.Outcome State Fault Refusal := .next s

end Sys2Proof.Machine
end

