-- ==== Sys2Proof/Machine/Pwm.lean ====
section
/-! DEFINITION. The PWM engine: PWM_UPDATE, PWM_RUN and PWM_STOP (41_pwm.md). Arithmetic is on natural numbers
(00_scope.md R9); a count is narrowed to 32 bits where it is stored, and fits (41_pwm.md R145). -/

namespace Sys2Proof.Machine

/-- `select_branch(force)` (41_pwm.md R131). -/
def selectBranch (force : Bool) (p : Pwm) : Branch :=
  if force = true ∨ p.req.freq ≠ p.prev.freq then .freq
  else if p.req.duty ≠ p.prev.duty then .duty
  else if p.req.th ≠ p.prev.th then .high
  else if p.req.tl ≠ p.prev.tl then .low
  else .none

/-- Three counts as register values. -/
def countsOf (period high low : Nat) : Counts where
  period := BitVec.ofNat 32 period
  high := BitVec.ofNat 32 high
  low := BitVec.ofNat 32 low

/-- The period of a request f in deci-Hz, before the nudge (41_pwm.md R132). -/
def periodOf (clk f : Nat) : Nat := if f = 0 then regMax else clamp (rdiv (10 * clk) f) 1 regMax

/-- `nudge_period(Pc, f, P0)` (41_pwm.md R133). -/
def nudgePeriod (pc f freqPrev p0 : Nat) : Nat :=
  if f ≠ freqPrev ∧ pc = p0 then
    if f > freqPrev then max 1 (pc - 1) else min regMax (pc + 1)
  else pc

/-- `apply_duty(P)` for a period P and a duty request (41_pwm.md R134). -/
def applyDuty (period duty : Nat) : Counts :=
  let high := rdiv (period * min duty 1000) 1000
  countsOf period high (period - high)

/-- `freq_branch()` (41_pwm.md R132). -/
def freqBranch (clk : Nat) (p : Pwm) : Counts :=
  let f := p.req.freq.toNat
  applyDuty (nudgePeriod (periodOf clk f) f p.prev.freq.toNat p.regs.period.toNat) p.req.duty.toNat

/-- The duty branch: `apply_duty(period_register)` (41_pwm.md R134). -/
def dutyBranch (p : Pwm) : Counts := applyDuty p.regs.period.toNat p.req.duty.toNat

/-- A time in ns as a count, before the nudge (41_pwm.md R135). -/
def countOfTime (clk t : Nat) : Nat := min (rdiv (t * clk) 1000000000) regMax

/-- The nudge of a time that collapses onto the count held (41_pwm.md R135). -/
def nudgeCount (c t tPrev held : Nat) : Nat :=
  if c = held then
    if t > tPrev then min regMax (c + 1) else c - 1
  else c

/-- `linked_set(HIGH, c)` (41_pwm.md R137). -/
def linkedSetHigh (r : Counts) (c : Nat) : Counts :=
  let high := min c r.period.toNat
  countsOf r.period.toNat high (r.period.toNat - high)

/-- `linked_set(LOW, c)` (41_pwm.md R137). -/
def linkedSetLow (r : Counts) (c : Nat) : Counts :=
  let low := min c r.period.toNat
  countsOf r.period.toNat (r.period.toNat - low) low

/-- The edited count of an unlinked set whose counterpart is `other` (41_pwm.md R138). -/
def unlinkedEdit (c other : Nat) : Nat :=
  let e := min c (regMax - other)
  if e + other = 0 then 1 else e

/-- `unlinked_set(HIGH, c)` (41_pwm.md R138). -/
def unlinkedSetHigh (r : Counts) (c : Nat) : Counts :=
  let high := unlinkedEdit c r.low.toNat
  countsOf (high + r.low.toNat) high r.low.toNat

/-- `unlinked_set(LOW, c)` (41_pwm.md R138). -/
def unlinkedSetLow (r : Counts) (c : Nat) : Counts :=
  let low := unlinkedEdit c r.high.toNat
  countsOf (r.high.toNat + low) r.high.toNat low

/-- `high_branch()` (41_pwm.md R135). -/
def highBranch (clk : Nat) (p : Pwm) : Counts :=
  let t := p.req.th.toNat
  let c := nudgeCount (countOfTime clk t) t p.prev.th.toNat p.regs.high.toNat
  if p.linked then linkedSetHigh p.regs c else unlinkedSetHigh p.regs c

/-- `low_branch()` (41_pwm.md R136). -/
def lowBranch (clk : Nat) (p : Pwm) : Counts :=
  let t := p.req.tl.toNat
  let c := nudgeCount (countOfTime clk t) t p.prev.tl.toNat p.regs.low.toNat
  if p.linked then linkedSetLow p.regs c else unlinkedSetLow p.regs c

/-- The physical registers after the branch b (41_pwm.md R130). -/
def branchCounts (b : Branch) (clk : Nat) (p : Pwm) : Counts :=
  match b with
  | .none => p.regs
  | .freq => freqBranch clk p
  | .duty => dutyBranch p
  | .high => highBranch clk p
  | .low => lowBranch clk p

/-- The derived frequency, duty, high time and low time of the final registers (41_pwm.md R139). -/
def derivedRequests (clk : Nat) (r : Counts) : Requests :=
  let period := r.period.toNat
  { freq := BitVec.ofNat 64 (if period = 0 then 0 else rdiv (10 * clk) period)
    duty := BitVec.ofNat 64 (if period = 0 then 0 else rdiv (1000 * r.high.toNat) period)
    th := BitVec.ofNat 64 (rdiv (r.high.toNat * 1000000000) clk)
    tl := BitVec.ofNat 64 (rdiv (r.low.toNat * 1000000000) clk) }

/-- `store_snapshot()` (41_pwm.md R140). -/
def storeSnapshot (mode : SnapshotMode) (d : Requests) (p : Pwm) : Pwm :=
  { p with prev := d, req := if mode = .writeback then d else p.req }

/-- A register that changed, as the pair the commit sends; nothing for one that did not (41_pwm.md R142). -/
def changedPair (reg : CounterReg) (new old : Count) : List (CounterReg × Count) :=
  if new ≠ old then [(reg, new)] else []

/-- The list of `commit()`, in the order PERIOD, HIGH, LOW (41_pwm.md R142). -/
def commitList (new old : Counts) : List (CounterReg × Count) :=
  changedPair .period new.period old.period ++ changedPair .high new.high old.high ++ changedPair .low new.low old.low

/-- `commit()` (41_pwm.md R142). -/
def commit (s : State) : State :=
  match commitList s.pwm.regs s.pwm.committed with
  | [] => s
  | l => counterCommit l { s with pwm := { s.pwm with committed := s.pwm.regs } }

/-- What a pass does to the PWM registers, but for the committed copies: the branch, the snapshot of the derived
values, the resolution (41_pwm.md R130, R139 to R141). -/
def reconcile (b : Branch) (cfg : Params) (p : Pwm) : Pwm :=
  let regs := branchCounts b cfg.clk.toNat p
  storeSnapshot cfg.snapshotMode (derivedRequests cfg.clk.toNat regs)
    { p with regs := regs, resBits := BitVec.ofNat 64 (bitLength regs.period.toNat) }

/-- `PWM_UPDATE(force)` as a change of the state (41_pwm.md R130). -/
def pwmUpdate (force : Bool) (s : State) : State :=
  match selectBranch force s.pwm with
  | .none => setLastBranch .none s
  | b => commit (setLastBranch b { s with pwm := reconcile b s.cfg s.pwm })

/-- PWM_UPDATE (41_pwm.md R130). -/
def execPwmUpdate (force : Bool) (s : State) : Host.Outcome State Fault Refusal := .next (pwmUpdate force s)

/-- RUNNING becomes b, with an Enable event if that changes it (41_pwm.md R143, R144). -/
def setRunning (b : Bool) (s : State) : State :=
  if s.pwm.running = b then s else counterEnable b { s with pwm := { s.pwm with running := b } }

/-- PWM_RUN (41_pwm.md R143). -/
def execPwmRun (s : State) : Host.Outcome State Fault Refusal := .next (setRunning true s)

/-- PWM_STOP (41_pwm.md R144). -/
def execPwmStop (s : State) : Host.Outcome State Fault Refusal := .next (setRunning false s)

end Sys2Proof.Machine
end

