-- ==== Sys2Proof/Machine/Dispatch.lean ====
section
/-! DEFINITION. The meaning of each command: one arm per constructor (40_dispatch.md R120). -/

namespace Sys2Proof.Machine

def exec (i : Instr) (s : State) : Host.Outcome State Fault Refusal :=
  match i with
  | .nop => Sys2Proof.Machine.execNop s
  | .pwmUpdate force => Sys2Proof.Machine.execPwmUpdate force s
  | .pwmRun => Sys2Proof.Machine.execPwmRun s
  | .pwmStop => Sys2Proof.Machine.execPwmStop s
  | .ddsSetFreq => Sys2Proof.Machine.execDdsSetFreq s
  | .ddsSetPhase => Sys2Proof.Machine.execDdsSetPhase s
  | .ddsSetWaveform kind => Sys2Proof.Machine.execDdsSetWaveform kind s
  | .ddsStop => Sys2Proof.Machine.execDdsStop s
  | .ddsSuspend => Sys2Proof.Machine.execDdsSuspend s
  | .ddsResume => Sys2Proof.Machine.execDdsResume s
  | .busTrylock => Sys2Proof.Machine.execBusTrylock s
  | .busUnlock => Sys2Proof.Machine.execBusUnlock s

end Sys2Proof.Machine
end

