-- ==== Sys2Proof/Machine/Bus.lean ====
section
/-! DEFINITION. The register window: the register map (10_state.md R21), HOST reads and writes (20_memory.md R61 to
R68), and what a write to CMD executes (40_dispatch.md R120). -/

namespace Sys2Proof.Machine

/-- The registers of 10_state.md R21, by the spec's names. -/
inductive Reg where
  | cmd | status | pwmCtrl
  | pwmFreq | pwmDuty | pwmTh | pwmTl
  | pwmFreqPrev | pwmDutyPrev | pwmThPrev | pwmTlPrev
  | pwmPeriodReg | pwmThReg | pwmTlReg
  | pwmPeriodRegPrev | pwmThRegPrev | pwmTlRegPrev
  | pwmResBits
  | pwmFreqMin | pwmFreqMax | pwmDutyMin | pwmDutyMax | pwmThMin | pwmThMax | pwmTlMin | pwmTlMax
  | pwmClk
  | ddsFreq | ddsFreqPrev | ddsPhase | ddsState | ddsCtrl
  | ddsFreq0 | ddsFreq1 | ddsPhase0 | ddsPhase1
  | ddsFreqMin | ddsFreqMax | ddsChannel
deriving DecidableEq, Repr

/-- The byte offset of a register from BLOCK_BASE (10_state.md R21). -/
def Reg.offset : Reg → Nat
  | .cmd => 0x000
  | .status => 0x008
  | .pwmCtrl => 0x010
  | .pwmFreq => 0x018
  | .pwmDuty => 0x020
  | .pwmTh => 0x028
  | .pwmTl => 0x030
  | .pwmFreqPrev => 0x038
  | .pwmDutyPrev => 0x040
  | .pwmThPrev => 0x048
  | .pwmTlPrev => 0x050
  | .pwmPeriodReg => 0x058
  | .pwmThReg => 0x060
  | .pwmTlReg => 0x068
  | .pwmPeriodRegPrev => 0x070
  | .pwmThRegPrev => 0x078
  | .pwmTlRegPrev => 0x080
  | .pwmResBits => 0x088
  | .pwmFreqMin => 0x090
  | .pwmFreqMax => 0x098
  | .pwmDutyMin => 0x0A0
  | .pwmDutyMax => 0x0A8
  | .pwmThMin => 0x0B0
  | .pwmThMax => 0x0B8
  | .pwmTlMin => 0x0C0
  | .pwmTlMax => 0x0C8
  | .pwmClk => 0x0D0
  | .ddsFreq => 0x100
  | .ddsFreqPrev => 0x108
  | .ddsPhase => 0x110
  | .ddsState => 0x118
  | .ddsCtrl => 0x120
  | .ddsFreq0 => 0x128
  | .ddsFreq1 => 0x130
  | .ddsPhase0 => 0x138
  | .ddsPhase1 => 0x140
  | .ddsFreqMin => 0x148
  | .ddsFreqMax => 0x150
  | .ddsChannel => 0x158

/-- Every register, in the order of the map. -/
def Reg.all : List Reg :=
  [.cmd, .status, .pwmCtrl, .pwmFreq, .pwmDuty, .pwmTh, .pwmTl, .pwmFreqPrev, .pwmDutyPrev, .pwmThPrev, .pwmTlPrev,
   .pwmPeriodReg, .pwmThReg, .pwmTlReg, .pwmPeriodRegPrev, .pwmThRegPrev, .pwmTlRegPrev, .pwmResBits] ++
  [.pwmFreqMin, .pwmFreqMax, .pwmDutyMin, .pwmDutyMax, .pwmThMin, .pwmThMax, .pwmTlMin, .pwmTlMax, .pwmClk] ++
  [.ddsFreq, .ddsFreqPrev, .ddsPhase, .ddsState, .ddsCtrl, .ddsFreq0, .ddsFreq1, .ddsPhase0, .ddsPhase1,
   .ddsFreqMin, .ddsFreqMax, .ddsChannel]

/-- The register at an offset, none for a reserved one (10_state.md R21, R45). -/
def regAt (off : Nat) : Option Reg := Reg.all.find? (fun r => r.offset = off)

/-- What a HOST read of a register returns, reserved bits 0 (20_memory.md R63, 10_state.md R22 to R42). -/
def readReg (s : State) : Reg → Word
  | .cmd => 0
  | .status => statusWord s
  | .pwmCtrl => pwmCtrlWord s.pwm
  | .pwmFreq => s.pwm.req.freq
  | .pwmDuty => s.pwm.req.duty
  | .pwmTh => s.pwm.req.th
  | .pwmTl => s.pwm.req.tl
  | .pwmFreqPrev => s.pwm.prev.freq
  | .pwmDutyPrev => s.pwm.prev.duty
  | .pwmThPrev => s.pwm.prev.th
  | .pwmTlPrev => s.pwm.prev.tl
  | .pwmPeriodReg => s.pwm.regs.period.setWidth 64
  | .pwmThReg => s.pwm.regs.high.setWidth 64
  | .pwmTlReg => s.pwm.regs.low.setWidth 64
  | .pwmPeriodRegPrev => s.pwm.committed.period.setWidth 64
  | .pwmThRegPrev => s.pwm.committed.high.setWidth 64
  | .pwmTlRegPrev => s.pwm.committed.low.setWidth 64
  | .pwmResBits => s.pwm.resBits
  | .pwmFreqMin => s.cfg.freq.lo
  | .pwmFreqMax => s.cfg.freq.hi
  | .pwmDutyMin => s.cfg.duty.lo
  | .pwmDutyMax => s.cfg.duty.hi
  | .pwmThMin => s.cfg.th.lo
  | .pwmThMax => s.cfg.th.hi
  | .pwmTlMin => s.cfg.tl.lo
  | .pwmTlMax => s.cfg.tl.hi
  | .pwmClk => s.cfg.clk.setWidth 64
  | .ddsFreq => s.dds.freq.setWidth 64
  | .ddsFreqPrev => s.dds.freqPrev.setWidth 64
  | .ddsPhase => s.dds.phase.setWidth 64
  | .ddsState => ddsStateWord s.dds
  | .ddsCtrl => s.dds.ctrl.setWidth 64
  | .ddsFreq0 => s.dds.freq0.setWidth 64
  | .ddsFreq1 => s.dds.freq1.setWidth 64
  | .ddsPhase0 => s.dds.phase0.setWidth 64
  | .ddsPhase1 => s.dds.phase1.setWidth 64
  | .ddsFreqMin => (kindLimits s.cfg s.dds.kind).lo.setWidth 64
  | .ddsFreqMax => (kindLimits s.cfg s.dds.kind).hi.setWidth 64
  | .ddsChannel => s.cfg.channelId

/-- `MemRead(off, 8)` of an admitted offset: reserved offsets read 0 (20_memory.md R63, 10_state.md R45). -/
def memRead (s : State) (off : Nat) : Word :=
  match regAt off with
  | some r => readReg s r
  | none => 0

/-- `clamp(v, MIN, MAX)` of a PWM request (20_memory.md R65). DEDUCED (log entry 18), unsafe: a held value outside the
limits is clamped too when it is written again (R250). -/
def clampRequest (l : Limits) (v : Word) : Word := BitVec.ofNat 64 (clamp v.toNat l.lo.toNat l.hi.toNat)

/-- A HOST write to a register other than CMD (20_memory.md R64 to R68); read-only registers ignore it. -/
def writeReg (r : Reg) (v : Word) (s : State) : State :=
  match r with
  | .status => { s with status := s.status.writeOneToClear v }
  | .pwmCtrl => { s with pwm := { s.pwm with linked := v.getLsbD 0 } }
  | .pwmFreq => { s with pwm := { s.pwm with req := { s.pwm.req with freq := clampRequest s.cfg.freq v } } }
  | .pwmDuty => { s with pwm := { s.pwm with req := { s.pwm.req with duty := clampRequest s.cfg.duty v } } }
  | .pwmTh => { s with pwm := { s.pwm with req := { s.pwm.req with th := clampRequest s.cfg.th v } } }
  | .pwmTl => { s with pwm := { s.pwm with req := { s.pwm.req with tl := clampRequest s.cfg.tl v } } }
  | .ddsFreq => { s with dds := { s.dds with freq := v.extractLsb' 0 28 } }
  | .ddsPhase => { s with dds := { s.dds with phase := v.extractLsb' 0 12 } }
  | _ => s

/-- `dispatch(c)`: a write to CMD executes its word, or raises IllegalCommand (40_dispatch.md R120, R122). -/
def dispatch (c : Word) (s : State) : Host.Outcome State Fault Refusal :=
  match decode c with
  | .ok i => exec i s
  | .error _ => .next (raiseIllegalCommand (c.extractLsb' 0 8) s)

/-- `MemWrite(off, 8, v)` of an admitted offset (20_memory.md R64). -/
def memWrite (off : Nat) (v : Word) (s : State) : Host.Outcome State Fault Refusal :=
  match regAt off with
  | some .cmd => dispatch v s
  | some r => .next (writeReg r v s)
  | none => .next s

/-- A HOST read: not answered outside the window (R60); an AccessError that returns 0 where R61 does not admit it
(R229); else the register's value (R63). AccessError comes first (60_exceptions.md R222). -/
def hostRead (addr : HostAddr) (bytes : Nat) (s : State) : Host.Outcome State Fault Refusal :=
  match addr.offset? s.cfg with
  | none => .fault .outsideWindow
  | some off =>
    if Admitted off bytes then .next (answerRead (memRead s off) s) else .next (answerRead 0 (raiseAccessError s))

/-- A HOST write: not answered outside the window (R60); an AccessError where R61 does not admit it (R229), so that a
narrow or misaligned write to CMD executes nothing (60_exceptions.md R222); else the register's effect (R64). -/
def hostWrite (addr : HostAddr) (bytes : Nat) (v : Word) (s : State) : Host.Outcome State Fault Refusal :=
  match addr.offset? s.cfg with
  | none => .fault .outsideWindow
  | some off => if Admitted off bytes then memWrite off v s else .next (raiseAccessError s)

/-- The effect of one stimulus (00_scope.md R5, R13). -/
def respond (st : Stimulus) (s : State) : Host.Outcome State Fault Refusal :=
  match st with
  | .read addr bytes => hostRead addr bytes s
  | .write addr bytes v => hostWrite addr bytes v s
  | .envAcquire => .next (envAcquire s)
  | .envRelease => .next (envRelease s)
  | .reset => .next (resetBlock s)

/-- The block's next move: the head of `pending`, taken off the list first; with nothing pending the block stays as it
is, since it takes no step of its own (00_scope.md R5). DESIGN CHOICE (log entry 3), safe: an idle step. -/
def advance (s : State) : Host.Outcome State Fault Refusal :=
  match s.pending with
  | [] => .next s
  | st :: rest => respond st { s with pending := rest }

/-- The HOST write of a command word to CMD. -/
def cmdWrite (c : Word) : Stimulus := .write (.block 0) 8 c

end Sys2Proof.Machine
end

