-- ==== Sys2Proof/Machine/Step.lean ====
section
/-! DEFINITION. One step of the machine, and where a step finds its next command. -/

namespace Sys2Proof.Machine

/-- One step: the next stimulus takes its whole effect (00_scope.md R13, 20_memory.md R70). -/
def step (s : State) : Host.Outcome State Fault Refusal := advance s

/-- The state in which the very next step is the HOST's write of this command word to CMD. -/
def State.withFetchWord (s : State) (nbits w : Nat) : State :=
  { s with pending := cmdWrite (tableWord nbits w) :: s.pending }

end Sys2Proof.Machine
end

