-- ==== Sys2Proof/Machine/Assembly.lean ====
section
/-! DEFINITION. The notation of programs: the access lines of 30_encoding.md R100 and the pseudo-instructions of R101,
each as the HOST accesses it stands for. A program is put in `State.pending`. -/

namespace Sys2Proof.Machine

/-- `wr NAME, v` (30_encoding.md R100). -/
def wr (r : Reg) (v : Word) : Stimulus := .write (.block r.offset) 8 v

/-- `rd NAME` (30_encoding.md R100). -/
def rd (r : Reg) : Stimulus := .read (.block r.offset) 8

/-- `cmd MNEMONIC` with its argument (30_encoding.md R100). -/
def cmd (i : Instr) : Stimulus := wr .cmd (encode i)

/-- `pwm.freq v` (30_encoding.md R101). -/
def pseudoPwmFreq (v : Word) : List Stimulus := [wr .pwmFreq v, cmd (.pwmUpdate false)]
/-- `pwm.duty v` (30_encoding.md R101). -/
def pseudoPwmDuty (v : Word) : List Stimulus := [wr .pwmDuty v, cmd (.pwmUpdate false)]
/-- `pwm.th v` (30_encoding.md R101). -/
def pseudoPwmTh (v : Word) : List Stimulus := [wr .pwmTh v, cmd (.pwmUpdate false)]
/-- `pwm.tl v` (30_encoding.md R101). -/
def pseudoPwmTl (v : Word) : List Stimulus := [wr .pwmTl v, cmd (.pwmUpdate false)]
/-- `pwm.link b` (30_encoding.md R101). -/
def pseudoPwmLink (b : Word) : List Stimulus := [wr .pwmCtrl b]
/-- `dds.freq v` (30_encoding.md R101). -/
def pseudoDdsFreq (v : Word) : List Stimulus := [wr .ddsFreq v, cmd .ddsSetFreq]
/-- `dds.phase p` (30_encoding.md R101). -/
def pseudoDdsPhase (p : Word) : List Stimulus := [wr .ddsPhase p, cmd .ddsSetPhase]
/-- `status.clear` (30_encoding.md R101). -/
def pseudoStatusClear : List Stimulus := [wr .status 3]

end Sys2Proof.Machine
end

