-- ==== Sys2Proof/Safety.lean ====
section
/-! DEFINITION. The terms claims use: a safe run, the invariants of the machine, and what the event history says to the
two external sinks when it is read back in the formats of the spec. -/

namespace Sys2Proof

/-- The six DDS commands, OP 0x10 to 0x15 (42_dds.md R170). -/
def Instr.IsDds : Instr → Prop
  | .ddsSetFreq => True
  | .ddsSetPhase => True
  | .ddsSetWaveform _ => True
  | .ddsStop => True
  | .ddsSuspend => True
  | .ddsResume => True
  | .nop => False
  | .pwmUpdate _ => False
  | .pwmRun => False
  | .pwmStop => False
  | .busTrylock => False
  | .busUnlock => False

end Sys2Proof

namespace Sys2Proof.Machine

/-- The stimulus is no HOST access outside the window (20_memory.md R60). -/
def Stimulus.InWindow (p : Params) : Stimulus → Prop
  | .read addr _ => (addr.offset? p).isSome
  | .write addr _ _ => (addr.offset? p).isSome
  | .envAcquire => True
  | .envRelease => True
  | .reset => True

/-- A safe run of k steps: none of them stops. -/
def SafeRun (k : Nat) (s : State) : Prop := ∃ t, Sys2Proof.core.run k s = .next t

/-- The stimulus is a HOST write of the word c to CMD, by whatever address (10_state.md R22). -/
def Stimulus.IsCmdWrite (p : Params) (c : Word) : Stimulus → Prop
  | .write addr bytes v => addr.offset? p = some 0 ∧ bytes = 8 ∧ v = c
  | .read _ _ => False
  | .envAcquire => False
  | .envRelease => False
  | .reset => False

/-- The next step of s executes the command i: the head of `pending` is a HOST write to CMD of a word that decodes
to i (40_dispatch.md R120). -/
def Executes (s : State) (i : Instr) : Prop :=
  ∃ st rest c, s.pending = st :: rest ∧ st.IsCmdWrite s.cfg c ∧ decode c = .ok i

/-- The next step of s is an assertion of the reset input (70_reset_and_hazards.md R240). -/
def ResetsNext (s : State) : Prop := ∃ rest, s.pending = .reset :: rest

/-- R34: the physical registers and their committed copies agree. -/
abbrev CommittedAgree (s : State) : Prop := s.pwm.regs = s.pwm.committed

/-- R145.2: th_register + tl_register = period_register. -/
abbrev SumAgrees (s : State) : Prop := s.pwm.regs.high.toNat + s.pwm.regs.low.toNat = s.pwm.regs.period.toNat

/-- R141: PWM_RES_BITS is the bit length of the period. -/
abbrev ResolutionAgrees (s : State) : Prop := s.pwm.resBits.toNat = bitLength s.pwm.regs.period.toNat

/-- R26, R145.5: the duty request and its snapshot are at most 1000 per mille. -/
abbrev DutyBounded (s : State) : Prop := s.pwm.req.duty.toNat ≤ 1000 ∧ s.pwm.prev.duty.toNat ≤ 1000

/-- R39: bits 15, 14, 12, 9, 6 to 2 and 0 of DDS_CTRL are 0 and B28 (bit 13) is 1. -/
abbrev CtrlFixedBits (s : State) : Prop := s.dds.ctrl &&& 0xF27D#16 = 0x2000#16

/-- R174: MODE is the bit the current kind sets. -/
abbrev ModeAgrees (s : State) : Prop := chipMode s.dds.ctrl = modeOf s.dds.kind

/-- R36, R40: the live frequency register was last sent DDS_FREQ_PREV. -/
abbrev LiveFreqAgrees (s : State) : Prop := s.dds.freqShadow (fselect s.dds.ctrl) = s.dds.freqPrev

/-- R74: a commit is not empty, and names each register at most once, in the order PERIOD, HIGH, LOW. -/
def Event.WellFormed : Event → Prop
  | .serial _ => True
  | .enable _ => True
  | .commit pairs => pairs ≠ [] ∧ (pairs.map Prod.fst).Sublist [CounterReg.period, CounterReg.high, CounterReg.low]

/-- R74: every event of the history has its form. -/
abbrev EventsWellFormed (s : State) : Prop := ∀ e ∈ s.events, e.WellFormed

/-- The invariant of the machine: what holds at reset and what every step keeps. -/
structure State.Inv (s : State) : Prop where
  params     : s.cfg.WellFormed
  committed  : CommittedAgree s
  sum        : SumAgrees s
  resolution : ResolutionAgrees s
  duty       : DutyBounded s
  ctrl       : CtrlFixedBits s
  mode       : ModeAgrees s
  liveFreq   : LiveFreqAgrees s
  events     : EventsWellFormed s

/-- What the PWM counter hardware has been told: its three registers and whether it counts (20_memory.md R74, R75). -/
structure CounterView where
  counts  : Counts
  enabled : Bool
deriving DecidableEq, Repr

/-- One pair of a commit, taken (20_memory.md R74). -/
def takePair (c : Counts) : CounterReg × Count → Counts
  | (.period, n) => { c with period := n }
  | (.high, n) => { c with high := n }
  | (.low, n) => { c with low := n }

/-- One event, as the counter hardware takes it: all pairs of a commit at once, an enable, no serial word. -/
def CounterView.take (v : CounterView) : Event → CounterView
  | .serial _ => v
  | .commit pairs => { v with counts := pairs.foldl takePair v.counts }
  | .enable on => { v with enabled := on }

/-- The history replayed to a counter that starts as R241 takes it to: registers 0, disabled. UNVERIFIED (log entry
14), unsafe: what a real counter holds after reset. -/
def replayCounter (es : List Event) : CounterView := es.foldl CounterView.take ⟨Counts.zero, false⟩

/-- R31, R24: the history, replayed to the counter hardware, gives the committed copies and RUNNING. -/
abbrev CounterReplayAgrees (s : State) : Prop := replayCounter s.events = ⟨s.pwm.committed, s.pwm.running⟩

/-- What the serial words have said, read in the formats of 30_encoding.md R96 to R98: the configuration word, the two
words of each ping-pong pair, and the low half of a frequency whose high half has not come yet. -/
structure SerialView where
  ctrl   : SerialWord
  freq0  : FreqWord
  freq1  : FreqWord
  phase0 : PhaseWord
  phase1 : PhaseWord
  half   : Option (BitVec 14)
deriving DecidableEq, Repr

/-- A frequency data word for FREQ1 (true) or FREQ0: the first is the low half, the second completes the word (R97). -/
def SerialView.takeFreq (v : SerialView) (i : Bool) (w : SerialWord) : SerialView :=
  match v.half with
  | none => { v with half := some (w.extractLsb' 0 14) }
  | some lo =>
    if i then { v with freq1 := w.extractLsb' 0 14 ++ lo, half := none }
    else { v with freq0 := w.extractLsb' 0 14 ++ lo, half := none }

/-- One serial word, by its prefix: 00 control (R96), 01 FREQ0, 10 FREQ1 (R97), 110 PHASE0, 111 PHASE1 (R98). -/
def SerialView.takeWord (v : SerialView) (w : SerialWord) : SerialView :=
  match w.getLsbD 15, w.getLsbD 14, w.getLsbD 13 with
  | false, false, _ => { v with ctrl := w }
  | false, true, _ => v.takeFreq false w
  | true, false, _ => v.takeFreq true w
  | true, true, false => { v with phase0 := w.extractLsb' 0 12 }
  | true, true, true => { v with phase1 := w.extractLsb' 0 12 }

/-- One event, as the DDS chip's port sees it. -/
def SerialView.take (v : SerialView) : Event → SerialView
  | .serial w => v.takeWord w
  | .commit _ => v
  | .enable _ => v

/-- The history read back from the block's own view at reset: DDS_CTRL 0x2100, shadows 0 (70_reset_and_hazards.md
R240). It is a view of what has been sent, not of the chip (10_state.md R40, R44). -/
def replaySerial (es : List Event) : SerialView := es.foldl SerialView.take ⟨0x2100, 0, 0, 0, 0, none⟩

/-- R39 to R41: the serial words sent, read back, give DDS_CTRL and the four shadows; no half word is left over. -/
structure SerialReplayAgrees (s : State) : Prop where
  ctrlBits : CtrlFixedBits s
  replay   : replaySerial s.events = ⟨s.dds.ctrl, s.dds.freq0, s.dds.freq1, s.dds.phase0, s.dds.phase1, none⟩

end Sys2Proof.Machine
end

