-- ==== Sys2Proof/Certificates/Slice0/Obligations.lean ====
section
/-! DEFINITION. The statements about the TDDS-RB for the provers. Each docstring names the rule of the spec it
formalises; where a clause is the model's own choice it says so and names the log entry. -/

open Sys2Proof Sys2Proof.Machine

/-! ## Encoding -/

/-- 30_encoding.md R90 to R93: a word decodes to a command exactly when it is that command's one encoding, so decoding
an encoded command gives it back and no bit of a word is dropped. -/
def Obligations.DecodeAndEncodeAgree : Prop :=
  ∀ (c : Word) (i : Instr), decode c = .ok i ↔ c = encode i

/-- 30_encoding.md R93, R94: the decoder accepts exactly the words that none of R93's four conditions excludes, and
bits [7:0] of an accepted word tell the command. -/
def Obligations.DecodeAcceptsExactlyLegalWords : Prop :=
  (∀ c : Word, (∃ i, decode c = .ok i) ↔ LegalWord c) ∧
  (∀ (c d : Word) (i j : Instr), decode c = .ok i → decode d = .ok j → (opOf c = opOf d ↔ i.mnemonic = j.mnemonic))

/-- spec/opcode_table.json: the rows' patterns never overlap, every accepted word matches the row of its command, and
every word that matches a row is that row's command, but for DDS_SET_WAVEFORM with kind 3 (30_encoding.md R93.4). -/
def Obligations.OpcodeRowsMatchDecoder : Prop :=
  (∀ (c : Word) (r q : OpcodeRow), r ∈ opcodeRows → q ∈ opcodeRows → r.Matches c → q.Matches c → r = q) ∧
  (∀ (c : Word) (i : Instr), decode c = .ok i → ∃ r ∈ opcodeRows, r.Matches c ∧ r.mnemonic = i.mnemonic) ∧
  (∀ (c : Word) (r : OpcodeRow), r ∈ opcodeRows → r.Matches c → c ≠ 0x0312#64 →
    ∃ i, decode c = .ok i ∧ i.mnemonic = r.mnemonic)

/-- 30_encoding.md R92: the full 64-bit encodings it lists decode to the commands it lists, and the word 0x0312 of
40_dispatch.md R122 to none. -/
def Obligations.ListedWordsDecode : Prop :=
  decode 0x0000000000000000#64 = .ok .nop ∧ decode 0x0000000000000001#64 = .ok (.pwmUpdate false) ∧
  decode 0x0000000000000101#64 = .ok (.pwmUpdate true) ∧ decode 0x02#64 = .ok .pwmRun ∧
  decode 0x03#64 = .ok .pwmStop ∧ decode 0x10#64 = .ok .ddsSetFreq ∧ decode 0x11#64 = .ok .ddsSetPhase ∧
  decode 0x0012#64 = .ok (.ddsSetWaveform .dc) ∧ decode 0x0112#64 = .ok (.ddsSetWaveform .triangle) ∧
  decode 0x0212#64 = .ok (.ddsSetWaveform .sine) ∧ decode 0x13#64 = .ok .ddsStop ∧
  decode 0x14#64 = .ok .ddsSuspend ∧ decode 0x15#64 = .ok .ddsResume ∧ decode 0x20#64 = .ok .busTrylock ∧
  decode 0x21#64 = .ok .busUnlock ∧ decode 0x0312#64 = .error .kindThree

/-- 20_memory.md R62: byte k of a register carries bits [8k+7 : 8k], and the eight bytes make the register again. -/
def Obligations.ByteLanesAreLittleEndian : Prop :=
  ∀ v : Word, ofLanes (lanes v) = some v ∧
    ∀ k < 8, (lanes v)[k]? = some (lane v k) ∧ ∀ j < 8, (lane v k).getLsbD j = v.getLsbD (8 * k + j)

/-! ## Steps, accesses and the register window -/

/-- 40_dispatch.md R120: a HOST write of eight bytes to CMD, by whatever address names it, executes the command its
word decodes to, as one step. Around exec the step only takes the access off the list. -/
def Obligations.StepRunsDecodedCommand : Prop :=
  ∀ (s : State) (addr : HostAddr) (c : Word) (rest : List Stimulus) (i : Instr),
    s.pending = .write addr 8 c :: rest → addr.offset? s.cfg = some 0 → decode c = .ok i →
    step s = exec i { s with pending := rest }

/-- 40_dispatch.md R122: an illegal word written to CMD sets ILLEGAL and LAST_ILLEGAL_OP and changes nothing else. -/
def Obligations.IllegalCommandChangesStatusOnly : Prop :=
  ∀ (s : State) (addr : HostAddr) (c : Word) (rest : List Stimulus),
    s.pending = .write addr 8 c :: rest → addr.offset? s.cfg = some 0 → ¬ LegalWord c →
    step s = .next { s with
      pending := rest
      status := { s.status with illegal := true, lastIllegalOp := c.extractLsb' 0 8 } }

/-- 20_memory.md R61, 60_exceptions.md R229 and R222: an access in the window of another width or at an offset that is
no multiple of 8 sets ACCESS_ERR and nothing else, whatever register it aims at; a read returns 0. -/
def Obligations.AccessErrorChangesStatusOnly : Prop :=
  ∀ (s : State) (addr : HostAddr) (off bytes : Nat) (v : Word) (rest : List Stimulus),
    addr.offset? s.cfg = some off → (bytes ≠ 8 ∨ off % 8 ≠ 0) →
    (s.pending = .write addr bytes v :: rest →
      step s = .next { s with pending := rest, status := { s.status with accessErr := true } }) ∧
    (s.pending = .read addr bytes :: rest →
      step s = .next { s with
        pending := rest
        status := { s.status with accessErr := true }
        readBack := some 0 })

/-- 20_memory.md R60: the window is the 512 host addresses from BLOCK_BASE, named directly or by their offset. -/
def Obligations.WindowStartsAtBlockBase : Prop :=
  ∀ (p : Params) (a off : Nat),
    ((HostAddr.absolute a).offset? p = some off ↔ off < 0x200 ∧ a = p.blockBase + off) ∧
    ((HostAddr.block a).offset? p = some off ↔ off < 0x200 ∧ a = off)

/-- The model's choice, log entry 6 (20_memory.md R60, vector AE9): an access outside the window stops the model. -/
def Obligations.OutsideWindowAccessStops : Prop :=
  ∀ (s : State) (addr : HostAddr) (bytes : Nat) (v : Word) (rest : List Stimulus), addr.offset? s.cfg = none →
    (s.pending = .read addr bytes :: rest → step s = .fault .outsideWindow) ∧
    (s.pending = .write addr bytes v :: rest → step s = .fault .outsideWindow)

/-- 20_memory.md R63: an admitted read returns the register's value and changes nothing; CMD and the reserved offsets
(10_state.md R45) read 0. -/
def Obligations.ReadsHaveNoSideEffect : Prop :=
  (∀ (s : State) (addr : HostAddr) (off : Nat) (rest : List Stimulus),
    s.pending = .read addr 8 :: rest → addr.offset? s.cfg = some off → off % 8 = 0 →
    step s = .next { s with pending := rest, readBack := some (memRead s off) }) ∧
  (∀ s : State, memRead s 0x000 = 0) ∧
  (∀ (s : State) (off : Nat), (0x0D8 ≤ off ∧ off ≤ 0x0F8) ∨ (0x160 ≤ off ∧ off ≤ 0x1F8) → off % 8 = 0 →
    memRead s off = 0)

/-- 20_memory.md R64, 10_state.md R45: a write to a read-only register or a reserved offset is ignored and is no
error. -/
def Obligations.ReadOnlyWritesAreIgnored : Prop :=
  ∀ (s : State) (addr : HostAddr) (off : Nat) (v : Word) (rest : List Stimulus),
    s.pending = .write addr 8 v :: rest → addr.offset? s.cfg = some off → off % 8 = 0 →
    off ∉ [0x000, 0x008, 0x010, 0x018, 0x020, 0x028, 0x030, 0x100, 0x110] →
    step s = .next { s with pending := rest }

/-- 10_state.md R23: every field of STATUS stands at its bits, and the bits of no field read 0. -/
def Obligations.StatusReadsItsFields : Prop :=
  ∀ s : State,
    (memRead s 0x008).getLsbD 0 = s.status.illegal ∧ (memRead s 0x008).getLsbD 1 = s.status.accessErr ∧
    (memRead s 0x008).getLsbD 2 = s.status.ddsDone ∧ (memRead s 0x008).getLsbD 3 = s.status.lockOk ∧
    (memRead s 0x008).getLsbD 4 = s.lock ∧
    ((memRead s 0x008).extractLsb' 8 3).toNat =
      (match s.status.lastBranch with
        | .none => 0
        | .freq => 1
        | .duty => 2
        | .high => 3
        | .low => 4) ∧
    (memRead s 0x008).extractLsb' 16 8 = s.status.lastIllegalOp ∧ memRead s 0x008 &&& 0xFFFFFFFFFF00F8E0 = 0

/-- 10_state.md R23: a write to STATUS clears ILLEGAL where bit 0 is 1 and ACCESS_ERR where bit 1 is 1, and ignores
every other bit. -/
def Obligations.StatusWriteOneClears : Prop :=
  ∀ (s : State) (addr : HostAddr) (v : Word) (rest : List Stimulus),
    s.pending = .write addr 8 v :: rest → addr.offset? s.cfg = some 0x008 →
    step s = .next { s with
      pending := rest
      status := { s.status with
        illegal := if v.getLsbD 0 then false else s.status.illegal
        accessErr := if v.getLsbD 1 then false else s.status.accessErr } }

/-- 20_memory.md R66 and 10_state.md R24: a write to PWM_CTRL sets LINKED to bit 0 and does nothing else; PWM_CTRL
reads LINKED at bit 0, RUNNING at bit 1 and 0 elsewhere. -/
def Obligations.PwmCtrlHoldsLinkedAndRunning : Prop :=
  (∀ (s : State) (addr : HostAddr) (v : Word) (rest : List Stimulus),
    s.pending = .write addr 8 v :: rest → addr.offset? s.cfg = some 0x010 →
    step s = .next { s with pending := rest, pwm := { s.pwm with linked := v.getLsbD 0 } }) ∧
  (∀ (s : State) (i : Nat), (memRead s 0x010).getLsbD i =
    if i = 0 then s.pwm.linked else if i = 1 then s.pwm.running else false)

/-- 20_memory.md R65: a write to a PWM request stores the value clamped to the declared limits and changes nothing
else. -/
def Obligations.RequestWritesAreClamped : Prop :=
  ∀ (s : State) (addr : HostAddr) (v : Word) (rest : List Stimulus), s.pending = .write addr 8 v :: rest →
    (addr.offset? s.cfg = some 0x018 → ∃ w : Word, w.toNat = min (max v.toNat s.cfg.freq.lo.toNat) s.cfg.freq.hi.toNat ∧
      step s = .next { s with pending := rest, pwm := { s.pwm with req := { s.pwm.req with freq := w } } }) ∧
    (addr.offset? s.cfg = some 0x020 → ∃ w : Word, w.toNat = min (max v.toNat s.cfg.duty.lo.toNat) s.cfg.duty.hi.toNat ∧
      step s = .next { s with pending := rest, pwm := { s.pwm with req := { s.pwm.req with duty := w } } }) ∧
    (addr.offset? s.cfg = some 0x028 → ∃ w : Word, w.toNat = min (max v.toNat s.cfg.th.lo.toNat) s.cfg.th.hi.toNat ∧
      step s = .next { s with pending := rest, pwm := { s.pwm with req := { s.pwm.req with th := w } } }) ∧
    (addr.offset? s.cfg = some 0x030 → ∃ w : Word, w.toNat = min (max v.toNat s.cfg.tl.lo.toNat) s.cfg.tl.hi.toNat ∧
      step s = .next { s with pending := rest, pwm := { s.pwm with req := { s.pwm.req with tl := w } } })

/-- 20_memory.md R67, R68: a write to DDS_FREQ stores bits [27:0], one to DDS_PHASE bits [11:0], and nothing else
changes. -/
def Obligations.DdsWordWritesAreMasked : Prop :=
  ∀ (s : State) (addr : HostAddr) (v : Word) (rest : List Stimulus), s.pending = .write addr 8 v :: rest →
    (addr.offset? s.cfg = some 0x100 →
      step s = .next { s with pending := rest, dds := { s.dds with freq := v.extractLsb' 0 28 } }) ∧
    (addr.offset? s.cfg = some 0x110 →
      step s = .next { s with pending := rest, dds := { s.dds with phase := v.extractLsb' 0 12 } })

/-- 10_state.md R33, R42: the limit registers, PWM_CLK and DDS_CHANNEL read their parameters, the DDS limits those of
the current kind. -/
def Obligations.LimitRegistersReadParameters : Prop :=
  ∀ s : State,
    memRead s 0x090 = s.cfg.freq.lo ∧ memRead s 0x098 = s.cfg.freq.hi ∧
    memRead s 0x0A0 = s.cfg.duty.lo ∧ memRead s 0x0A8 = s.cfg.duty.hi ∧
    memRead s 0x0B0 = s.cfg.th.lo ∧ memRead s 0x0B8 = s.cfg.th.hi ∧
    memRead s 0x0C0 = s.cfg.tl.lo ∧ memRead s 0x0C8 = s.cfg.tl.hi ∧
    (memRead s 0x0D0).toNat = s.cfg.clk.toNat ∧ memRead s 0x158 = s.cfg.channelId ∧
    (s.dds.kind = .dc → (memRead s 0x148).toNat = s.cfg.ddsDc.lo.toNat ∧ (memRead s 0x150).toNat = s.cfg.ddsDc.hi.toNat) ∧
    (s.dds.kind = .triangle → (memRead s 0x148).toNat = s.cfg.ddsTriangle.lo.toNat ∧
      (memRead s 0x150).toNat = s.cfg.ddsTriangle.hi.toNat) ∧
    (s.dds.kind = .sine → (memRead s 0x148).toNat = s.cfg.ddsSine.lo.toNat ∧
      (memRead s 0x150).toNat = s.cfg.ddsSine.hi.toNat)

/-- 10_state.md R21, R25 to R32: the PWM registers read their values, the 32-bit ones zero-extended. -/
def Obligations.PwmRegistersReadTheirValues : Prop :=
  ∀ s : State,
    memRead s 0x018 = s.pwm.req.freq ∧ memRead s 0x020 = s.pwm.req.duty ∧
    memRead s 0x028 = s.pwm.req.th ∧ memRead s 0x030 = s.pwm.req.tl ∧
    memRead s 0x038 = s.pwm.prev.freq ∧ memRead s 0x040 = s.pwm.prev.duty ∧
    memRead s 0x048 = s.pwm.prev.th ∧ memRead s 0x050 = s.pwm.prev.tl ∧
    (memRead s 0x058).toNat = s.pwm.regs.period.toNat ∧ (memRead s 0x060).toNat = s.pwm.regs.high.toNat ∧
    (memRead s 0x068).toNat = s.pwm.regs.low.toNat ∧ (memRead s 0x070).toNat = s.pwm.committed.period.toNat ∧
    (memRead s 0x078).toNat = s.pwm.committed.high.toNat ∧ (memRead s 0x080).toNat = s.pwm.committed.low.toNat ∧
    memRead s 0x088 = s.pwm.resBits

/-- 10_state.md R21, R35 to R41 and 42_dds.md R178: the DDS registers read their values zero-extended; DDS_STATE reads
KIND at bits 1:0, RUNNING at bit 2 and RUNSTATE at bits 5:4, the last two as functions of RESET (bit 8) and SLEEP1
(bit 7) of DDS_CTRL, and 0 elsewhere. -/
def Obligations.DdsRegistersReadTheirValues : Prop :=
  ∀ s : State,
    (memRead s 0x100).toNat = s.dds.freq.toNat ∧ (memRead s 0x108).toNat = s.dds.freqPrev.toNat ∧
    (memRead s 0x110).toNat = s.dds.phase.toNat ∧ (memRead s 0x120).toNat = s.dds.ctrl.toNat ∧
    (memRead s 0x128).toNat = s.dds.freq0.toNat ∧ (memRead s 0x130).toNat = s.dds.freq1.toNat ∧
    (memRead s 0x138).toNat = s.dds.phase0.toNat ∧ (memRead s 0x140).toNat = s.dds.phase1.toNat ∧
    ((memRead s 0x118).extractLsb' 0 2).toNat =
      (match s.dds.kind with
        | .dc => 0
        | .triangle => 1
        | .sine => 2) ∧
    ((memRead s 0x118).getLsbD 2 = true ↔ s.dds.ctrl.getLsbD 8 = false ∧ s.dds.ctrl.getLsbD 7 = false) ∧
    ((memRead s 0x118).extractLsb' 4 2).toNat =
      (if s.dds.ctrl.getLsbD 8 then 0 else if s.dds.ctrl.getLsbD 7 then 1 else 2) ∧
    memRead s 0x118 &&& 0xFFFFFFFFFFFFFFC8 = 0

/-! ## The other agents, and reset -/

/-- 20_memory.md R76: ENV_ACQUIRE and ENV_RELEASE where they are enabled. Where one is not enabled, and where nothing
is pending, the model's choices of log entries 4 and 3: the entry, or the step, does nothing. -/
def Obligations.EnvironmentStepsMoveTheLock : Prop :=
  ∀ (s : State) (rest : List Stimulus),
    (s.pending = .envAcquire :: rest → s.lock = false →
      step s = .next { s with pending := rest, lock := true, envHolds := true }) ∧
    (s.pending = .envAcquire :: rest → s.lock = true → step s = .next { s with pending := rest }) ∧
    (s.pending = .envRelease :: rest → s.envHolds = true →
      step s = .next { s with pending := rest, lock := false, envHolds := false }) ∧
    (s.pending = .envRelease :: rest → s.envHolds = false → step s = .next { s with pending := rest }) ∧
    (s.pending = [] → step s = .next s)

/-- 20_memory.md R76, 43_buslock.md R211: while ENV_BUS holds the lock, the lock is held, unless the HOST executes
BUS_UNLOCK, which clears a lock whoever took it. -/
def Obligations.EnvironmentHoldEndsOnlyByHostUnlock : Prop :=
  ∀ s t : State, (s.envHolds = true → s.lock = true) → step s = .next t → ¬ Executes s .busUnlock →
    (t.envHolds = true → t.lock = true)

/-- 70_reset_and_hazards.md R240, R241: a reset, whatever the state, sets everything to its reset value and emits no
event. -/
def Obligations.ResetStepSetsResetValues : Prop :=
  ∀ (s : State) (rest : List Stimulus), s.pending = .reset :: rest → ∃ t, step s = .next t ∧
    t.status = ⟨false, false, false, false, .none, 0⟩ ∧
    t.pwm.linked = true ∧ t.pwm.running = false ∧ t.pwm.req = ⟨0, 0, 0, 0⟩ ∧ t.pwm.prev = ⟨0, 0, 0, 0⟩ ∧
    t.pwm.regs = ⟨0, 0, 0⟩ ∧ t.pwm.committed = ⟨0, 0, 0⟩ ∧ t.pwm.resBits = 0 ∧
    t.dds.freq = 0 ∧ t.dds.freqPrev = 0 ∧ t.dds.phase = 0 ∧ t.dds.kind = .sine ∧ t.dds.ctrl = 0x2100 ∧
    t.dds.freq0 = 0 ∧ t.dds.freq1 = 0 ∧ t.dds.phase0 = 0 ∧ t.dds.phase1 = 0 ∧
    t.lock = false ∧ t.events = [] ∧ t.envHolds = false

/-- 70_reset_and_hazards.md R240 and vectors Z1, Z2, Z3, Z5, Z6, Z7, Z8 of 95_test_vectors.md: what the HOST reads of
the machine after reset. -/
def Obligations.ResetStateReadsResetValues : Prop :=
  memRead State.reset 0x008 = 0 ∧ memRead State.reset 0x010 = 1 ∧
  (∀ k < 15, memRead State.reset (0x018 + 8 * k) = 0) ∧ memRead State.reset 0x100 = 0 ∧
  memRead State.reset 0x108 = 0 ∧ memRead State.reset 0x110 = 0 ∧ memRead State.reset 0x118 = 0x02 ∧
  memRead State.reset 0x120 = 0x2100 ∧ (∀ k < 4, memRead State.reset (0x128 + 8 * k) = 0) ∧
  State.reset.lock = false ∧ State.reset.events = [] ∧ State.reset.envHolds = false

/-! ## NOP and the lock commands -/

/-- 40_dispatch.md R121: NOP leaves the whole state and the event history unchanged. -/
def Obligations.NopChangesNothing : Prop := ∀ s : State, exec .nop s = .next s

/-- 43_buslock.md R210, R211: BUS_TRYLOCK takes a free lock and says so, and says busy, changing nothing else, where
it is held; BUS_UNLOCK clears the lock, whoever took it, and changes nothing else: not env_holds. -/
def Obligations.LockCommandsTakeAndGiveTheLock : Prop :=
  ∀ s : State,
    (s.lock = false → exec .busTrylock s = .next { s with lock := true, status := { s.status with lockOk := true } }) ∧
    (s.lock = true → exec .busTrylock s = .next { s with status := { s.status with lockOk := false } }) ∧
    exec .busUnlock s = .next { s with lock := false }

/-! ## The PWM engine -/

/-- 41_pwm.md R143, R144: PWM_RUN sets RUNNING and emits Enable(1) where the PWM is stopped, PWM_STOP clears RUNNING
and emits Enable(0) where it runs; each does nothing where there is nothing to change. -/
def Obligations.RunAndStopGateTheCounter : Prop :=
  ∀ s : State,
    (s.pwm.running = false → exec .pwmRun s =
      .next { s with pwm := { s.pwm with running := true }, events := s.events ++ [.enable true] }) ∧
    (s.pwm.running = true → exec .pwmRun s = .next s) ∧
    (s.pwm.running = true → exec .pwmStop s =
      .next { s with pwm := { s.pwm with running := false }, events := s.events ++ [.enable false] }) ∧
    (s.pwm.running = false → exec .pwmStop s = .next s)

/-- 41_pwm.md R131: the branch a pass takes, by the priority frequency, duty, high time, low time; a forced pass takes
the frequency branch; with NONE nothing but LAST_BRANCH changes. -/
def Obligations.PwmUpdateTakesFirstEditedField : Prop :=
  ∀ (s : State) (force : Bool), ∃ t, exec (.pwmUpdate force) s = .next t ∧
    (force = true ∨ s.pwm.req.freq ≠ s.pwm.prev.freq → t.status.lastBranch = .freq) ∧
    (force = false → s.pwm.req.freq = s.pwm.prev.freq →
      (s.pwm.req.duty ≠ s.pwm.prev.duty → t.status.lastBranch = .duty) ∧
      (s.pwm.req.duty = s.pwm.prev.duty →
        (s.pwm.req.th ≠ s.pwm.prev.th → t.status.lastBranch = .high) ∧
        (s.pwm.req.th = s.pwm.prev.th →
          (s.pwm.req.tl ≠ s.pwm.prev.tl → t.status.lastBranch = .low) ∧
          (s.pwm.req.tl = s.pwm.prev.tl → t = { s with status := { s.status with lastBranch := .none } }))))

/-- 41_pwm.md R132, R133, R134: the frequency branch, in either mode: the period is rdiv(10*CLK, f) clamped to
1..REG_MAX (REG_MAX for f = 0), nudged by one where a changed request collapses onto the period held; the duty is
reapplied to it. -/
def Obligations.FreqBranchDerivesTheRegisters : Prop :=
  ∀ (s : State) (force : Bool) (f pc p : Nat), (force = true ∨ s.pwm.req.freq ≠ s.pwm.prev.freq) →
    f = s.pwm.req.freq.toNat →
    pc = (if f = 0 then regMax else min (max (rdiv (10 * s.cfg.clk.toNat) f) 1) regMax) →
    p = (if f ≠ s.pwm.prev.freq.toNat ∧ pc = s.pwm.regs.period.toNat then
          (if f > s.pwm.prev.freq.toNat then max 1 (pc - 1) else min regMax (pc + 1)) else pc) →
    ∃ t, exec (.pwmUpdate force) s = .next t ∧ t.pwm.regs.period.toNat = p ∧
      t.pwm.regs.high.toNat = rdiv (p * min s.pwm.req.duty.toNat 1000) 1000 ∧
      t.pwm.regs.low.toNat = p - t.pwm.regs.high.toNat

/-- 41_pwm.md R134: apply_duty. After a frequency or duty branch the high count is the rounded share of the period the
branch leaves, the low count the remainder; the duty branch, taken as R131 says, keeps the period. -/
def Obligations.DutyBranchKeepsThePeriod : Prop :=
  (∀ (s t : State) (force : Bool), exec (.pwmUpdate force) s = .next t →
    (t.status.lastBranch = .freq ∨ t.status.lastBranch = .duty) →
    t.pwm.regs.high.toNat = rdiv (t.pwm.regs.period.toNat * min s.pwm.req.duty.toNat 1000) 1000 ∧
    t.pwm.regs.low.toNat = t.pwm.regs.period.toNat - t.pwm.regs.high.toNat ∧
    t.pwm.regs.high.toNat ≤ t.pwm.regs.period.toNat) ∧
  (∀ s : State, s.pwm.req.freq = s.pwm.prev.freq → s.pwm.req.duty ≠ s.pwm.prev.duty →
    ∃ t, exec (.pwmUpdate false) s = .next t ∧ t.status.lastBranch = .duty ∧ t.pwm.regs.period = s.pwm.regs.period)

/-- 41_pwm.md R135, R137, R138: the high-time branch. The count c is the time in clock periods, nudged by one where it
collapses onto the count held. Linked: it is limited to the period, which stays, and the low count is the rest.
Unlinked: the low count stays, the high count is limited to REG_MAX less it and raised to 1 where the sum would be 0,
and the period is the sum. -/
def Obligations.HighBranchEditsTheHighCount : Prop :=
  ∀ (s : State) (c0 c h : Nat), s.pwm.req.freq = s.pwm.prev.freq → s.pwm.req.duty = s.pwm.prev.duty →
    s.pwm.req.th ≠ s.pwm.prev.th →
    c0 = min (rdiv (s.pwm.req.th.toNat * s.cfg.clk.toNat) 1000000000) regMax →
    c = (if c0 = s.pwm.regs.high.toNat then
          (if s.pwm.req.th.toNat > s.pwm.prev.th.toNat then min regMax (c0 + 1) else c0 - 1) else c0) →
    h = min c (regMax - s.pwm.regs.low.toNat) →
    ∃ t, exec (.pwmUpdate false) s = .next t ∧
      (s.pwm.linked = true → t.pwm.regs.period = s.pwm.regs.period ∧
        t.pwm.regs.high.toNat = min c s.pwm.regs.period.toNat ∧
        t.pwm.regs.low.toNat = s.pwm.regs.period.toNat - t.pwm.regs.high.toNat) ∧
      (s.pwm.linked = false → t.pwm.regs.low = s.pwm.regs.low ∧
        t.pwm.regs.high.toNat = (if h + s.pwm.regs.low.toNat = 0 then 1 else h) ∧
        t.pwm.regs.period.toNat = t.pwm.regs.high.toNat + t.pwm.regs.low.toNat)

/-- 41_pwm.md R136, R137, R138: the low-time branch, the same with high and low exchanged. -/
def Obligations.LowBranchEditsTheLowCount : Prop :=
  ∀ (s : State) (c0 c l : Nat), s.pwm.req.freq = s.pwm.prev.freq → s.pwm.req.duty = s.pwm.prev.duty →
    s.pwm.req.th = s.pwm.prev.th → s.pwm.req.tl ≠ s.pwm.prev.tl →
    c0 = min (rdiv (s.pwm.req.tl.toNat * s.cfg.clk.toNat) 1000000000) regMax →
    c = (if c0 = s.pwm.regs.low.toNat then
          (if s.pwm.req.tl.toNat > s.pwm.prev.tl.toNat then min regMax (c0 + 1) else c0 - 1) else c0) →
    l = min c (regMax - s.pwm.regs.high.toNat) →
    ∃ t, exec (.pwmUpdate false) s = .next t ∧
      (s.pwm.linked = true → t.pwm.regs.period = s.pwm.regs.period ∧
        t.pwm.regs.low.toNat = min c s.pwm.regs.period.toNat ∧
        t.pwm.regs.high.toNat = s.pwm.regs.period.toNat - t.pwm.regs.low.toNat) ∧
      (s.pwm.linked = false → t.pwm.regs.high = s.pwm.regs.high ∧
        t.pwm.regs.low.toNat = (if l + s.pwm.regs.high.toNat = 0 then 1 else l) ∧
        t.pwm.regs.period.toNat = t.pwm.regs.high.toNat + t.pwm.regs.low.toNat)

/-- 41_pwm.md R139, R140, R145.5: after a pass that takes a branch the snapshot holds the values derived from the final
registers, as unbounded arithmetic gives them; WRITEBACK stores them in the requests too, PREV_ONLY keeps the
requests. -/
def Obligations.PassStoresDerivedValues : Prop :=
  ∀ (s t : State) (force : Bool), exec (.pwmUpdate force) s = .next t → t.status.lastBranch ≠ .none →
    (t.pwm.prev.freq.toNat =
      if t.pwm.regs.period.toNat = 0 then 0 else rdiv (10 * s.cfg.clk.toNat) t.pwm.regs.period.toNat) ∧
    (t.pwm.prev.duty.toNat =
      if t.pwm.regs.period.toNat = 0 then 0 else rdiv (1000 * t.pwm.regs.high.toNat) t.pwm.regs.period.toNat) ∧
    t.pwm.prev.th.toNat = rdiv (t.pwm.regs.high.toNat * 1000000000) s.cfg.clk.toNat ∧
    t.pwm.prev.tl.toNat = rdiv (t.pwm.regs.low.toNat * 1000000000) s.cfg.clk.toNat ∧
    (s.cfg.snapshotMode = .writeback → t.pwm.req = t.pwm.prev) ∧
    (s.cfg.snapshotMode = .prevOnly → t.pwm.req = s.pwm.req)

/-- 41_pwm.md R141 with 00_scope.md R11: after a pass that takes a branch PWM_RES_BITS is how many bits the period
takes: 0 for 0, else the n with 2^(n-1) <= period < 2^n. -/
def Obligations.PassSetsResolutionBits : Prop :=
  ∀ (s t : State) (force : Bool), exec (.pwmUpdate force) s = .next t → t.status.lastBranch ≠ .none →
    (t.pwm.regs.period.toNat = 0 → t.pwm.resBits = 0) ∧
    (t.pwm.regs.period.toNat ≠ 0 → 1 ≤ t.pwm.resBits.toNat ∧ t.pwm.resBits.toNat ≤ 32 ∧
      2 ^ (t.pwm.resBits.toNat - 1) ≤ t.pwm.regs.period.toNat ∧ t.pwm.regs.period.toNat < 2 ^ t.pwm.resBits.toNat)

/-- 41_pwm.md R142: a pass that takes a branch sends the registers that differ from their committed copies, in the
order PERIOD, HIGH, LOW, in one event, none where none differs; the copies then agree. -/
def Obligations.PassCommitsChangedRegisters : Prop :=
  ∀ (s t : State) (force : Bool) (l : List (CounterReg × Count)),
    exec (.pwmUpdate force) s = .next t → t.status.lastBranch ≠ .none →
    l = (if t.pwm.regs.period ≠ s.pwm.committed.period then [(CounterReg.period, t.pwm.regs.period)] else []) ++
        (if t.pwm.regs.high ≠ s.pwm.committed.high then [(CounterReg.high, t.pwm.regs.high)] else []) ++
        (if t.pwm.regs.low ≠ s.pwm.committed.low then [(CounterReg.low, t.pwm.regs.low)] else []) →
    t.pwm.committed = t.pwm.regs ∧ t.events = s.events ++ (if l = [] then [] else [.commit l])

/-- Frame of PWM_UPDATE, PWM_RUN and PWM_STOP (41_pwm.md R130, R143, R144): LAST_BRANCH and PWM_UPDATE's own PWM
registers and commit apart, nothing changes: not the other STATUS fields, the lock, the DDS channel, env_holds, the
parameters, what is pending or was read, LINKED; RUNNING changes by PWM_RUN and PWM_STOP only, which change no other
register; the history is only added to; every offset but those of STATUS, PWM_CTRL and the PWM registers 0x018 to
0x088 reads as before. -/
def Obligations.PwmCommandsFrame : Prop :=
  ∀ (s t : State) (i : Instr), (i = .pwmUpdate false ∨ i = .pwmUpdate true ∨ i = .pwmRun ∨ i = .pwmStop) →
    exec i s = .next t →
    t.status = { s.status with lastBranch := t.status.lastBranch } ∧ t.lock = s.lock ∧ t.dds = s.dds ∧
    t.envHolds = s.envHolds ∧ t.cfg = s.cfg ∧ t.pending = s.pending ∧ t.readBack = s.readBack ∧
    t.pwm.linked = s.pwm.linked ∧
    (i = .pwmRun ∨ i = .pwmStop → t.status = s.status ∧ t.pwm = { s.pwm with running := t.pwm.running }) ∧
    (i = .pwmUpdate false ∨ i = .pwmUpdate true → t.pwm.running = s.pwm.running) ∧
    s.events <+: t.events ∧ (∀ off, off = 0x000 ∨ 0x090 ≤ off → memRead t off = memRead s off)

/-- 41_pwm.md R145.2, R145.3: after a pass that takes a branch the counts add up to the period; after a frequency
branch, and after a high or low branch in unlinked mode, the period is at least 1. -/
def Obligations.PassLeavesCountsThatAddUp : Prop :=
  ∀ (s t : State) (force : Bool), exec (.pwmUpdate force) s = .next t → t.status.lastBranch ≠ .none →
    t.pwm.regs.high.toNat + t.pwm.regs.low.toNat = t.pwm.regs.period.toNat ∧
    (t.status.lastBranch = .freq → 1 ≤ t.pwm.regs.period.toNat) ∧
    (s.pwm.linked = false → t.status.lastBranch = .high ∨ t.status.lastBranch = .low → 1 ≤ t.pwm.regs.period.toNat) ∧
    (t.status.lastBranch = .duty → t.pwm.regs.period = s.pwm.regs.period) ∧
    (s.pwm.linked = true → t.status.lastBranch = .high ∨ t.status.lastBranch = .low →
      t.pwm.regs.period = s.pwm.regs.period)

/-- 41_pwm.md R145.7: after a frequency branch from f >= 1 whose period needed no clamp, the period is within 3/2 of
10*CLK/f, and within 1/2 where it was not nudged (the request unchanged, or no collapse). -/
def Obligations.FreqBranchPeriodIsNearTheRequest : Prop :=
  ∀ (s : State) (force : Bool) (f p0 : Nat), (force = true ∨ s.pwm.req.freq ≠ s.pwm.prev.freq) →
    f = s.pwm.req.freq.toNat → p0 = rdiv (10 * s.cfg.clk.toNat) f → 1 ≤ f → 1 ≤ p0 → p0 ≤ regMax →
    ∃ t, exec (.pwmUpdate force) s = .next t ∧
      2 * f * t.pwm.regs.period.toNat ≤ 20 * s.cfg.clk.toNat + 3 * f ∧
      20 * s.cfg.clk.toNat ≤ 2 * f * t.pwm.regs.period.toNat + 3 * f ∧
      (s.pwm.req.freq = s.pwm.prev.freq ∨ p0 ≠ s.pwm.regs.period.toNat →
        2 * f * t.pwm.regs.period.toNat ≤ 20 * s.cfg.clk.toNat + f ∧
        20 * s.cfg.clk.toNat ≤ 2 * f * t.pwm.regs.period.toNat + f)

/-- 41_pwm.md R145.6: after a frequency or duty branch the share th_register / period_register is within
1 / (2 * period_register) of duty / 1000, for a duty request of at most 1000. -/
def Obligations.DutyShareIsNearTheRequest : Prop :=
  ∀ (s t : State) (force : Bool), exec (.pwmUpdate force) s = .next t →
    (t.status.lastBranch = .freq ∨ t.status.lastBranch = .duty) → s.pwm.req.duty.toNat ≤ 1000 →
    2000 * t.pwm.regs.high.toNat ≤ 2 * t.pwm.regs.period.toNat * s.pwm.req.duty.toNat + 1000 ∧
    2 * t.pwm.regs.period.toNat * s.pwm.req.duty.toNat ≤ 2000 * t.pwm.regs.high.toNat + 1000

/-- 41_pwm.md R145.8: in WRITEBACK mode a second pass with no write between takes NONE. -/
def Obligations.SecondPassFindsNoEdit : Prop :=
  ∀ (s : State) (force : Bool), s.cfg.snapshotMode = .writeback →
    ∃ t, exec (.pwmUpdate force) s = .next t ∧
      exec (.pwmUpdate false) t = .next { t with status := { t.status with lastBranch := .none } }

/-- 20_memory.md R74: the PWM engine uses neither the serial port nor the bus lock: two states that agree on the PWM
registers and the parameters take the same branch, end with the same PWM registers and emit the same events, whatever
the lock, the DDS channel, the STATUS and the environment are. -/
def Obligations.PwmUpdateIgnoresDdsAndLock : Prop :=
  ∀ (s s' : State) (force : Bool), s.pwm = s'.pwm → s.cfg = s'.cfg →
    ∃ t t' : State, exec (.pwmUpdate force) s = .next t ∧ exec (.pwmUpdate force) s' = .next t' ∧ t.pwm = t'.pwm ∧
      t.status.lastBranch = t'.status.lastBranch ∧
      ∃ es : List Event, t.events = s.events ++ es ∧ t'.events = s'.events ++ es

/-! ## The DDS channel -/

/-- 42_dds.md R171, 70_reset_and_hazards.md R245: a DDS command that finds the lock held, whoever holds it, sets
DDS_DONE to 0 and changes nothing else. -/
def Obligations.HeldLockDropsDdsCommands : Prop :=
  ∀ (s : State) (i : Instr), i.IsDds → s.lock = true →
    exec i s = .next { s with status := { s.status with ddsDone := false } }

/-- 42_dds.md R172, 30_encoding.md R97: a performed DDS_SET_FREQ clamps the request to the kind's limits, sends its low
and then its high half to the idle register, flips FSELECT and sends the configuration word; the shadow, DDS_FREQ and
DDS_FREQ_PREV take the word; the lock is free again. One that finds the lock held only says so in DDS_DONE. -/
def Obligations.SetFreqLoadsTheIdleRegister : Prop :=
  ∀ (s : State) (l : FreqLimits) (v : FreqWord),
    (s.dds.kind = .dc → l = s.cfg.ddsDc) → (s.dds.kind = .triangle → l = s.cfg.ddsTriangle) →
    (s.dds.kind = .sine → l = s.cfg.ddsSine) →
    v.toNat = min (max s.dds.freq.toNat l.lo.toNat) l.hi.toNat →
    (s.lock = false → s.dds.ctrl.getLsbD 11 = false → exec .ddsSetFreq s = .next { s with
      status := { s.status with ddsDone := true }
      events := s.events ++ [.serial (0x8000 ||| (v.extractLsb' 0 14).setWidth 16),
        .serial (0x8000 ||| (v.extractLsb' 14 14).setWidth 16), .serial (s.dds.ctrl ||| 0x0800)]
      dds := { s.dds with freq := v, freqPrev := v, freq1 := v, ctrl := s.dds.ctrl ||| 0x0800 } }) ∧
    (s.lock = false → s.dds.ctrl.getLsbD 11 = true → exec .ddsSetFreq s = .next { s with
      status := { s.status with ddsDone := true }
      events := s.events ++ [.serial (0x4000 ||| (v.extractLsb' 0 14).setWidth 16),
        .serial (0x4000 ||| (v.extractLsb' 14 14).setWidth 16), .serial (s.dds.ctrl &&& 0xF7FF)]
      dds := { s.dds with freq := v, freqPrev := v, freq0 := v, ctrl := s.dds.ctrl &&& 0xF7FF } }) ∧
    (s.lock = true → exec .ddsSetFreq s = .next { s with status := { s.status with ddsDone := false } })

/-- 42_dds.md R173, 30_encoding.md R98: a performed DDS_SET_PHASE sends the phase to the idle register, flips PSELECT
and sends the configuration word; the shadow takes the phase; the lock is free again. -/
def Obligations.SetPhaseLoadsTheIdleRegister : Prop :=
  ∀ s : State, s.lock = false →
    (s.dds.ctrl.getLsbD 10 = false → exec .ddsSetPhase s = .next { s with
      status := { s.status with ddsDone := true }
      events := s.events ++ [.serial (0xE000 ||| s.dds.phase.setWidth 16), .serial (s.dds.ctrl ||| 0x0400)]
      dds := { s.dds with phase1 := s.dds.phase, ctrl := s.dds.ctrl ||| 0x0400 } }) ∧
    (s.dds.ctrl.getLsbD 10 = true → exec .ddsSetPhase s = .next { s with
      status := { s.status with ddsDone := true }
      events := s.events ++ [.serial (0xC000 ||| s.dds.phase.setWidth 16), .serial (s.dds.ctrl &&& 0xFBFF)]
      dds := { s.dds with phase0 := s.dds.phase, ctrl := s.dds.ctrl &&& 0xFBFF } })

/-- 42_dds.md R174: a performed DDS_SET_WAVEFORM sets MODE to 0 for SINE and to 1 for TRIANGLE and DC, stores the kind
and sends the configuration word; no other register changes. -/
def Obligations.SetWaveformSetsModeAndKind : Prop :=
  ∀ (s : State) (k : Kind) (ctrl : SerialWord), s.lock = false →
    ctrl = (if k = .sine then s.dds.ctrl &&& 0xFFFD else s.dds.ctrl ||| 0x0002) →
    exec (.ddsSetWaveform k) s = .next { s with
      status := { s.status with ddsDone := true }
      events := s.events ++ [.serial ctrl]
      dds := { s.dds with kind := k, ctrl := ctrl } }

/-- 42_dds.md R175, R176, R177: performed, DDS_STOP sets RESET, DDS_SUSPEND sets SLEEP1, DDS_RESUME clears both, and
each sends the configuration word, changed or not; no other register changes. -/
def Obligations.RunControlSetsResetAndSleep : Prop :=
  ∀ (s : State) (ctrl : SerialWord) (i : Instr), s.lock = false →
    (i = .ddsStop ∧ ctrl = s.dds.ctrl ||| 0x0100 ∨ i = .ddsSuspend ∧ ctrl = s.dds.ctrl ||| 0x0080 ∨
      i = .ddsResume ∧ ctrl = s.dds.ctrl &&& 0xFE7F) →
    exec i s = .next { s with
      status := { s.status with ddsDone := true }
      events := s.events ++ [.serial ctrl]
      dds := { s.dds with ctrl := ctrl } }

/-- 42_dds.md R178: the transitions of the run state machine by performed commands. -/
def Obligations.RunStateFollowsTheTable : Prop :=
  ∀ (s : State) (i : Instr), i.IsDds → s.lock = false → ∃ t, exec i s = .next t ∧
    runState t.dds.ctrl =
      (match i, runState s.dds.ctrl with
        | .ddsStop, _ => .stopped
        | .ddsSuspend, .stopped => .stopped
        | .ddsSuspend, .suspended => .suspended
        | .ddsSuspend, .running => .suspended
        | .ddsResume, _ => .running
        | _, r => r) ∧
    (i = .ddsStop ∨ i = .ddsSetFreq ∨ i = .ddsSetPhase → t.dds.ctrl.getLsbD 7 = s.dds.ctrl.getLsbD 7)

/-- 42_dds.md R179: a performed DDS_SET_FREQ flips FSELECT once and a second one flips it back; the live frequency
register is never written, and after it the register FSELECT names holds DDS_FREQ_PREV = DDS_FREQ. The same for
DDS_SET_PHASE and PSELECT. -/
def Obligations.PingPongWritesOnlyTheIdleRegister : Prop :=
  ∀ s : State, s.lock = false → ∃ t u t' u' : State,
    exec .ddsSetFreq s = .next t ∧ exec .ddsSetFreq t = .next u ∧
    fselect t.dds.ctrl = !fselect s.dds.ctrl ∧ fselect u.dds.ctrl = fselect s.dds.ctrl ∧
    t.dds.freqShadow (fselect s.dds.ctrl) = s.dds.freqShadow (fselect s.dds.ctrl) ∧
    t.dds.freqShadow (fselect t.dds.ctrl) = t.dds.freqPrev ∧ t.dds.freq = t.dds.freqPrev ∧
    u.dds.freqShadow (fselect t.dds.ctrl) = t.dds.freqShadow (fselect t.dds.ctrl) ∧
    exec .ddsSetPhase s = .next t' ∧ exec .ddsSetPhase t' = .next u' ∧
    pselect t'.dds.ctrl = !pselect s.dds.ctrl ∧ pselect u'.dds.ctrl = pselect s.dds.ctrl ∧
    t'.dds.phaseShadow (pselect s.dds.ctrl) = s.dds.phaseShadow (pselect s.dds.ctrl) ∧
    t'.dds.phaseShadow (pselect t'.dds.ctrl) = s.dds.phase ∧
    u'.dds.phaseShadow (pselect t'.dds.ctrl) = t'.dds.phaseShadow (pselect t'.dds.ctrl)

/-- Frame of the six DDS commands, performed or dropped (42_dds.md R170 to R177): the PWM engine, the lock, env_holds,
the parameters, what is pending or was read, and every STATUS field but DDS_DONE stay; DDS_PHASE stays; DDS_FREQ,
DDS_FREQ_PREV and the frequency shadows change by DDS_SET_FREQ only, the phase shadows by DDS_SET_PHASE only, KIND by
DDS_SET_WAVEFORM only; of DDS_CTRL only FSELECT, PSELECT, RESET, SLEEP1 and MODE can change; the history is only added
to; the PWM offsets 0x010 to 0x0F8 read as before. -/
def Obligations.DdsCommandsFrame : Prop :=
  ∀ (s t : State) (i : Instr), i.IsDds → exec i s = .next t →
    t.pwm = s.pwm ∧ t.lock = s.lock ∧ t.envHolds = s.envHolds ∧ t.cfg = s.cfg ∧ t.pending = s.pending ∧
    t.readBack = s.readBack ∧ t.status = { s.status with ddsDone := t.status.ddsDone } ∧ t.dds.phase = s.dds.phase ∧
    (i ≠ .ddsSetFreq → t.dds.freq = s.dds.freq ∧ t.dds.freqPrev = s.dds.freqPrev ∧ t.dds.freq0 = s.dds.freq0 ∧
      t.dds.freq1 = s.dds.freq1) ∧
    (i ≠ .ddsSetPhase → t.dds.phase0 = s.dds.phase0 ∧ t.dds.phase1 = s.dds.phase1) ∧
    ((∀ k, i ≠ .ddsSetWaveform k) → t.dds.kind = s.dds.kind) ∧ t.dds.ctrl &&& 0xF27D#16 = s.dds.ctrl &&& 0xF27D#16 ∧
    s.events <+: t.events ∧ (∀ off, 0x010 ≤ off → off ≤ 0x0F8 → memRead t off = memRead s off)

/-- 42_dds.md R171, 70_reset_and_hazards.md R246: a retry after a drop, once the lock is free, does exactly what the
dropped command would have done. -/
def Obligations.RetryAfterDropIsExact : Prop :=
  ∀ (s : State) (i : Instr), i.IsDds → s.lock = true → ∃ t, exec i s = .next t ∧
    exec i { t with lock := false } = exec i { s with lock := false }

/-! ## The whole machine -/

/-- The invariant holds after reset (70_reset_and_hazards.md R240, with the parameters of 00_scope.md R6). -/
def Obligations.InvariantHoldsAtReset : Prop := State.reset.Inv

/-- Every step keeps the invariant: the committed copies agree (10_state.md R34), the counts add up (41_pwm.md R145),
the resolution and the duty stay as R141 and R26 say, the fixed bits of DDS_CTRL stay fixed (10_state.md R39), MODE
agrees with the kind (42_dds.md R174), the live frequency is DDS_FREQ_PREV (R179.4), every commit has its form
(20_memory.md R74), and the parameters stay legal. -/
def Obligations.StepKeepsTheInvariant : Prop := ∀ s t : State, s.Inv → step s = .next t → t.Inv

/-- 10_state.md R31 with 70_reset_and_hazards.md R241: every step keeps it true that the counter hardware, told
everything in the event history, holds the committed copies and counts exactly while RUNNING is 1; and it is true at
reset. -/
def Obligations.CounterHistoryGivesCommittedCopies : Prop :=
  CounterReplayAgrees State.reset ∧ ∀ s t : State, CounterReplayAgrees s → step s = .next t → CounterReplayAgrees t

/-- 10_state.md R39 to R41 with 30_encoding.md R96 to R98: every step keeps it true that the serial words sent, read
back in their formats, give DDS_CTRL and the four shadows, with no half of a frequency left over; and it is true at
reset. -/
def Obligations.SerialHistoryGivesTheShadows : Prop :=
  SerialReplayAgrees State.reset ∧ ∀ s t : State, SerialReplayAgrees s → step s = .next t → SerialReplayAgrees t

/-- 20_memory.md R64, R73, R74, R75: apart from reset a step only adds to the history, and what it adds comes from its
own command: serial words from a DDS command that found the lock free, a commit from PWM_UPDATE, an enable from PWM_RUN
or PWM_STOP. -/
def Obligations.EventsComeFromTheirOwnCommands : Prop :=
  ∀ s t : State, step s = .next t → ¬ ResetsNext s → ∃ es, t.events = s.events ++ es ∧ ∀ e ∈ es,
    match e with
    | .serial _ => s.lock = false ∧ ∃ i : Instr, i.IsDds ∧ Executes s i
    | .commit _ => ∃ force, Executes s (.pwmUpdate force)
    | .enable true => Executes s .pwmRun
    | .enable false => Executes s .pwmStop

/-- 10_state.md R29 to R32: apart from reset, only PWM_UPDATE changes the snapshots, the physical registers, the
committed copies and PWM_RES_BITS. -/
def Obligations.OnlyPwmUpdateChangesTheCounts : Prop :=
  ∀ s t : State, step s = .next t → ¬ ResetsNext s → (∀ force, ¬ Executes s (.pwmUpdate force)) →
    t.pwm.regs = s.pwm.regs ∧ t.pwm.committed = s.pwm.committed ∧ t.pwm.prev = s.pwm.prev ∧
    t.pwm.resBits = s.pwm.resBits

/-- 10_state.md R43: apart from reset, the lock changes only by BUS_TRYLOCK, BUS_UNLOCK and the steps of ENV_BUS; a DDS
command gives back what it takes. -/
def Obligations.LockChangesOnlyByItsUsers : Prop :=
  ∀ s t : State, step s = .next t → t.lock ≠ s.lock →
    ResetsNext s ∨ (Executes s .busTrylock ∧ s.lock = false) ∨ (Executes s .busUnlock ∧ s.lock = true) ∨
    (∃ rest, s.pending = .envAcquire :: rest ∧ s.lock = false) ∨
    (∃ rest, s.pending = .envRelease :: rest ∧ s.envHolds = true)

/-- 00_scope.md R7: no step changes a parameter; and each step takes exactly one entry off what is pending. -/
def Obligations.StepKeepsTheParameters : Prop :=
  ∀ s t : State, step s = .next t → t.cfg = s.cfg ∧ t.pending = s.pending.tail

/-- 60_exceptions.md R220, 20_memory.md R79: nothing blocks and nothing traps: a run whose accesses all lie in the
window never stops, however long it is and whatever the schedule. -/
def Obligations.ProgramsInTheWindowNeverStop : Prop :=
  ∀ (s : State) (k : Nat), (∀ st ∈ s.pending, st.InWindow s.cfg) → SafeRun k s
end

