-- ==== Sys2Proof/Laws/Arith.lean ====
section
/-! SUPPORT. What rdiv, clamp and bitLength give, so that no later proof unfolds them. -/

namespace Sys2Proof.Machine

/-- REG_MAX as a numeral, for omega (00_scope.md R6). -/
theorem regMax_eq : regMax = 4294967295 := rfl

/-- The rounded quotient is within half a divisor of the dividend, a half rounded up (00_scope.md R10). -/
theorem rdiv_nearest {a b : Nat} (hb : 0 < b) :
    2 * b * rdiv a b ≤ 2 * a + b ∧ 2 * a + b < 2 * b * rdiv a b + 2 * b := by
  unfold rdiv
  refine ⟨Nat.mul_div_le _ _, ?_⟩
  have := Nat.lt_mul_div_succ (2 * a + b) (b := 2 * b) (by omega)
  rw [Nat.mul_add, Nat.mul_one] at this
  exact this

@[simp] theorem rdiv_zero_left {b : Nat} : rdiv 0 b = 0 := by
  unfold rdiv
  rcases Nat.eq_zero_or_pos b with rfl | hb
  · simp
  · exact Nat.div_eq_of_lt (by omega)

/-- A rounded quotient is never more than the dividend. -/
theorem rdiv_le (a b : Nat) : rdiv a b ≤ a := by
  rcases Nat.eq_zero_or_pos b with rfl | hb
  · simp [rdiv]
  · have h : a ≤ b * a := Nat.le_mul_of_pos_left a hb
    refine Nat.lt_succ_iff.mp ((Nat.div_lt_iff_lt_mul (by omega)).mpr ?_)
    rw [show a.succ * (2 * b) = 2 * (b * a) + 2 * b by rw [Nat.succ_mul]; ring]
    omega

/-- Rounding the share d / n of P, for d at most n, gives at most P (41_pwm.md R134). -/
theorem rdiv_mul_le {p d n : Nat} (hn : 0 < n) (hd : d ≤ n) : rdiv (p * d) n ≤ p := by
  have h := (rdiv_nearest (a := p * d) hn).1
  have h2 : p * d ≤ p * n := Nat.mul_le_mul_left p hd
  by_contra hc
  have : n * (p + 1) ≤ n * rdiv (p * d) n := Nat.mul_le_mul_left n (by omega)
  nlinarith

/-- A rounded quotient is monotone in the dividend's bound: a <= c * b gives at most c. -/
theorem rdiv_le_of_le_mul {a b c : Nat} (hb : 0 < b) (h : a ≤ c * b) : rdiv a b ≤ c := by
  have h1 := (rdiv_nearest (a := a) hb).1
  by_contra hc
  have : b * (c + 1) ≤ b * rdiv a b := Nat.mul_le_mul_left b (by omega)
  nlinarith

theorem clamp_le_hi (v lo hi : Nat) : clamp v lo hi ≤ hi := Nat.min_le_right _ _

theorem lo_le_clamp {v lo hi : Nat} (h : lo ≤ hi) : lo ≤ clamp v lo hi := by
  unfold clamp
  omega

/-- A value within the limits is kept. -/
theorem clamp_eq_self {v lo hi : Nat} (h1 : lo ≤ v) (h2 : v ≤ hi) : clamp v lo hi = v := by
  unfold clamp
  omega

@[simp] theorem bitLength_zero : bitLength 0 = 0 := rfl

/-- The bit length of n brackets n (00_scope.md R11). -/
theorem bitLength_bounds {n : Nat} (h : n ≠ 0) :
    1 ≤ bitLength n ∧ 2 ^ (bitLength n - 1) ≤ n ∧ n < 2 ^ bitLength n := by
  simp only [bitLength, if_neg h]
  exact ⟨by omega, by simpa using Nat.log2_self_le h, Nat.lt_log2_self⟩

/-- A number below 2^k has at most k bits. -/
theorem bitLength_le {n k : Nat} (h : n < 2 ^ k) : bitLength n ≤ k := by
  rcases Nat.eq_zero_or_pos n with rfl | hn
  · simp
  · have h1 := (bitLength_bounds (n := n) (by omega)).2.1
    by_contra hc
    have := Nat.pow_le_pow_right (n := 2) (by omega) (show k ≤ bitLength n - 1 by omega)
    omega

end Sys2Proof.Machine
end

