-- ==== Sys2Proof/Laws/State.lean ====
section
/-! SUPPORT. One lemma per field of State per named update, each by rfl, so that no later proof unfolds an update. -/

namespace Sys2Proof.Machine

/-! `emit` -/

@[simp] theorem emit_status (e : Event) (s : State) : (emit e s).status = s.status := rfl
@[simp] theorem emit_lock (e : Event) (s : State) : (emit e s).lock = s.lock := rfl
@[simp] theorem emit_pwm (e : Event) (s : State) : (emit e s).pwm = s.pwm := rfl
@[simp] theorem emit_dds (e : Event) (s : State) : (emit e s).dds = s.dds := rfl
@[simp] theorem emit_events (e : Event) (s : State) : (emit e s).events = s.events ++ [e] := rfl
@[simp] theorem emit_envHolds (e : Event) (s : State) : (emit e s).envHolds = s.envHolds := rfl
@[simp] theorem emit_cfg (e : Event) (s : State) : (emit e s).cfg = s.cfg := rfl
@[simp] theorem emit_pending (e : Event) (s : State) : (emit e s).pending = s.pending := rfl
@[simp] theorem emit_readBack (e : Event) (s : State) : (emit e s).readBack = s.readBack := rfl

/-! `serialWrite` -/

@[simp] theorem serialWrite_status (w : SerialWord) (s : State) : (serialWrite w s).status = s.status := rfl
@[simp] theorem serialWrite_lock (w : SerialWord) (s : State) : (serialWrite w s).lock = s.lock := rfl
@[simp] theorem serialWrite_pwm (w : SerialWord) (s : State) : (serialWrite w s).pwm = s.pwm := rfl
@[simp] theorem serialWrite_dds (w : SerialWord) (s : State) : (serialWrite w s).dds = s.dds := rfl
@[simp] theorem serialWrite_events (w : SerialWord) (s : State) : (serialWrite w s).events = s.events ++ [.serial w] := rfl
@[simp] theorem serialWrite_envHolds (w : SerialWord) (s : State) : (serialWrite w s).envHolds = s.envHolds := rfl
@[simp] theorem serialWrite_cfg (w : SerialWord) (s : State) : (serialWrite w s).cfg = s.cfg := rfl
@[simp] theorem serialWrite_pending (w : SerialWord) (s : State) : (serialWrite w s).pending = s.pending := rfl
@[simp] theorem serialWrite_readBack (w : SerialWord) (s : State) : (serialWrite w s).readBack = s.readBack := rfl

/-! `counterCommit` -/

@[simp] theorem counterCommit_status (l : List (CounterReg × Count)) (s : State) : (counterCommit l s).status = s.status := rfl
@[simp] theorem counterCommit_lock (l : List (CounterReg × Count)) (s : State) : (counterCommit l s).lock = s.lock := rfl
@[simp] theorem counterCommit_pwm (l : List (CounterReg × Count)) (s : State) : (counterCommit l s).pwm = s.pwm := rfl
@[simp] theorem counterCommit_dds (l : List (CounterReg × Count)) (s : State) : (counterCommit l s).dds = s.dds := rfl
@[simp] theorem counterCommit_events (l : List (CounterReg × Count)) (s : State) : (counterCommit l s).events = s.events ++ [.commit l] := rfl
@[simp] theorem counterCommit_envHolds (l : List (CounterReg × Count)) (s : State) : (counterCommit l s).envHolds = s.envHolds := rfl
@[simp] theorem counterCommit_cfg (l : List (CounterReg × Count)) (s : State) : (counterCommit l s).cfg = s.cfg := rfl
@[simp] theorem counterCommit_pending (l : List (CounterReg × Count)) (s : State) : (counterCommit l s).pending = s.pending := rfl
@[simp] theorem counterCommit_readBack (l : List (CounterReg × Count)) (s : State) : (counterCommit l s).readBack = s.readBack := rfl

/-! `counterEnable` -/

@[simp] theorem counterEnable_status (b : Bool) (s : State) : (counterEnable b s).status = s.status := rfl
@[simp] theorem counterEnable_lock (b : Bool) (s : State) : (counterEnable b s).lock = s.lock := rfl
@[simp] theorem counterEnable_pwm (b : Bool) (s : State) : (counterEnable b s).pwm = s.pwm := rfl
@[simp] theorem counterEnable_dds (b : Bool) (s : State) : (counterEnable b s).dds = s.dds := rfl
@[simp] theorem counterEnable_events (b : Bool) (s : State) : (counterEnable b s).events = s.events ++ [.enable b] := rfl
@[simp] theorem counterEnable_envHolds (b : Bool) (s : State) : (counterEnable b s).envHolds = s.envHolds := rfl
@[simp] theorem counterEnable_cfg (b : Bool) (s : State) : (counterEnable b s).cfg = s.cfg := rfl
@[simp] theorem counterEnable_pending (b : Bool) (s : State) : (counterEnable b s).pending = s.pending := rfl
@[simp] theorem counterEnable_readBack (b : Bool) (s : State) : (counterEnable b s).readBack = s.readBack := rfl

/-! `sendCtrl` -/

@[simp] theorem sendCtrl_status (c : SerialWord) (s : State) : (sendCtrl c s).status = s.status := rfl
@[simp] theorem sendCtrl_lock (c : SerialWord) (s : State) : (sendCtrl c s).lock = s.lock := rfl
@[simp] theorem sendCtrl_pwm (c : SerialWord) (s : State) : (sendCtrl c s).pwm = s.pwm := rfl
@[simp] theorem sendCtrl_dds (c : SerialWord) (s : State) : (sendCtrl c s).dds = { s.dds with ctrl := c } := rfl
@[simp] theorem sendCtrl_events (c : SerialWord) (s : State) : (sendCtrl c s).events = s.events ++ [.serial c] := rfl
@[simp] theorem sendCtrl_envHolds (c : SerialWord) (s : State) : (sendCtrl c s).envHolds = s.envHolds := rfl
@[simp] theorem sendCtrl_cfg (c : SerialWord) (s : State) : (sendCtrl c s).cfg = s.cfg := rfl
@[simp] theorem sendCtrl_pending (c : SerialWord) (s : State) : (sendCtrl c s).pending = s.pending := rfl
@[simp] theorem sendCtrl_readBack (c : SerialWord) (s : State) : (sendCtrl c s).readBack = s.readBack := rfl

/-! `release` -/

@[simp] theorem release_status (s : State) : (release s).status = s.status := rfl
@[simp] theorem release_lock (s : State) : (release s).lock = false := rfl
@[simp] theorem release_pwm (s : State) : (release s).pwm = s.pwm := rfl
@[simp] theorem release_dds (s : State) : (release s).dds = s.dds := rfl
@[simp] theorem release_events (s : State) : (release s).events = s.events := rfl
@[simp] theorem release_envHolds (s : State) : (release s).envHolds = s.envHolds := rfl
@[simp] theorem release_cfg (s : State) : (release s).cfg = s.cfg := rfl
@[simp] theorem release_pending (s : State) : (release s).pending = s.pending := rfl
@[simp] theorem release_readBack (s : State) : (release s).readBack = s.readBack := rfl

/-! `setLastBranch` -/

@[simp] theorem setLastBranch_status (b : Branch) (s : State) : (setLastBranch b s).status = { s.status with lastBranch := b } := rfl
@[simp] theorem setLastBranch_lock (b : Branch) (s : State) : (setLastBranch b s).lock = s.lock := rfl
@[simp] theorem setLastBranch_pwm (b : Branch) (s : State) : (setLastBranch b s).pwm = s.pwm := rfl
@[simp] theorem setLastBranch_dds (b : Branch) (s : State) : (setLastBranch b s).dds = s.dds := rfl
@[simp] theorem setLastBranch_events (b : Branch) (s : State) : (setLastBranch b s).events = s.events := rfl
@[simp] theorem setLastBranch_envHolds (b : Branch) (s : State) : (setLastBranch b s).envHolds = s.envHolds := rfl
@[simp] theorem setLastBranch_cfg (b : Branch) (s : State) : (setLastBranch b s).cfg = s.cfg := rfl
@[simp] theorem setLastBranch_pending (b : Branch) (s : State) : (setLastBranch b s).pending = s.pending := rfl
@[simp] theorem setLastBranch_readBack (b : Branch) (s : State) : (setLastBranch b s).readBack = s.readBack := rfl

/-! `setDdsDone` -/

@[simp] theorem setDdsDone_status (b : Bool) (s : State) : (setDdsDone b s).status = { s.status with ddsDone := b } := rfl
@[simp] theorem setDdsDone_lock (b : Bool) (s : State) : (setDdsDone b s).lock = s.lock := rfl
@[simp] theorem setDdsDone_pwm (b : Bool) (s : State) : (setDdsDone b s).pwm = s.pwm := rfl
@[simp] theorem setDdsDone_dds (b : Bool) (s : State) : (setDdsDone b s).dds = s.dds := rfl
@[simp] theorem setDdsDone_events (b : Bool) (s : State) : (setDdsDone b s).events = s.events := rfl
@[simp] theorem setDdsDone_envHolds (b : Bool) (s : State) : (setDdsDone b s).envHolds = s.envHolds := rfl
@[simp] theorem setDdsDone_cfg (b : Bool) (s : State) : (setDdsDone b s).cfg = s.cfg := rfl
@[simp] theorem setDdsDone_pending (b : Bool) (s : State) : (setDdsDone b s).pending = s.pending := rfl
@[simp] theorem setDdsDone_readBack (b : Bool) (s : State) : (setDdsDone b s).readBack = s.readBack := rfl

/-! `setLockOk` -/

@[simp] theorem setLockOk_status (b : Bool) (s : State) : (setLockOk b s).status = { s.status with lockOk := b } := rfl
@[simp] theorem setLockOk_lock (b : Bool) (s : State) : (setLockOk b s).lock = s.lock := rfl
@[simp] theorem setLockOk_pwm (b : Bool) (s : State) : (setLockOk b s).pwm = s.pwm := rfl
@[simp] theorem setLockOk_dds (b : Bool) (s : State) : (setLockOk b s).dds = s.dds := rfl
@[simp] theorem setLockOk_events (b : Bool) (s : State) : (setLockOk b s).events = s.events := rfl
@[simp] theorem setLockOk_envHolds (b : Bool) (s : State) : (setLockOk b s).envHolds = s.envHolds := rfl
@[simp] theorem setLockOk_cfg (b : Bool) (s : State) : (setLockOk b s).cfg = s.cfg := rfl
@[simp] theorem setLockOk_pending (b : Bool) (s : State) : (setLockOk b s).pending = s.pending := rfl
@[simp] theorem setLockOk_readBack (b : Bool) (s : State) : (setLockOk b s).readBack = s.readBack := rfl

/-! `raiseIllegalCommand` -/

@[simp] theorem raiseIllegalCommand_status (op : Byte) (s : State) : (raiseIllegalCommand op s).status = { s.status with illegal := true, lastIllegalOp := op } := rfl
@[simp] theorem raiseIllegalCommand_lock (op : Byte) (s : State) : (raiseIllegalCommand op s).lock = s.lock := rfl
@[simp] theorem raiseIllegalCommand_pwm (op : Byte) (s : State) : (raiseIllegalCommand op s).pwm = s.pwm := rfl
@[simp] theorem raiseIllegalCommand_dds (op : Byte) (s : State) : (raiseIllegalCommand op s).dds = s.dds := rfl
@[simp] theorem raiseIllegalCommand_events (op : Byte) (s : State) : (raiseIllegalCommand op s).events = s.events := rfl
@[simp] theorem raiseIllegalCommand_envHolds (op : Byte) (s : State) : (raiseIllegalCommand op s).envHolds = s.envHolds := rfl
@[simp] theorem raiseIllegalCommand_cfg (op : Byte) (s : State) : (raiseIllegalCommand op s).cfg = s.cfg := rfl
@[simp] theorem raiseIllegalCommand_pending (op : Byte) (s : State) : (raiseIllegalCommand op s).pending = s.pending := rfl
@[simp] theorem raiseIllegalCommand_readBack (op : Byte) (s : State) : (raiseIllegalCommand op s).readBack = s.readBack := rfl

/-! `raiseAccessError` -/

@[simp] theorem raiseAccessError_status (s : State) : (raiseAccessError s).status = { s.status with accessErr := true } := rfl
@[simp] theorem raiseAccessError_lock (s : State) : (raiseAccessError s).lock = s.lock := rfl
@[simp] theorem raiseAccessError_pwm (s : State) : (raiseAccessError s).pwm = s.pwm := rfl
@[simp] theorem raiseAccessError_dds (s : State) : (raiseAccessError s).dds = s.dds := rfl
@[simp] theorem raiseAccessError_events (s : State) : (raiseAccessError s).events = s.events := rfl
@[simp] theorem raiseAccessError_envHolds (s : State) : (raiseAccessError s).envHolds = s.envHolds := rfl
@[simp] theorem raiseAccessError_cfg (s : State) : (raiseAccessError s).cfg = s.cfg := rfl
@[simp] theorem raiseAccessError_pending (s : State) : (raiseAccessError s).pending = s.pending := rfl
@[simp] theorem raiseAccessError_readBack (s : State) : (raiseAccessError s).readBack = s.readBack := rfl

/-! `answerRead` -/

@[simp] theorem answerRead_status (v : Word) (s : State) : (answerRead v s).status = s.status := rfl
@[simp] theorem answerRead_lock (v : Word) (s : State) : (answerRead v s).lock = s.lock := rfl
@[simp] theorem answerRead_pwm (v : Word) (s : State) : (answerRead v s).pwm = s.pwm := rfl
@[simp] theorem answerRead_dds (v : Word) (s : State) : (answerRead v s).dds = s.dds := rfl
@[simp] theorem answerRead_events (v : Word) (s : State) : (answerRead v s).events = s.events := rfl
@[simp] theorem answerRead_envHolds (v : Word) (s : State) : (answerRead v s).envHolds = s.envHolds := rfl
@[simp] theorem answerRead_cfg (v : Word) (s : State) : (answerRead v s).cfg = s.cfg := rfl
@[simp] theorem answerRead_pending (v : Word) (s : State) : (answerRead v s).pending = s.pending := rfl
@[simp] theorem answerRead_readBack (v : Word) (s : State) : (answerRead v s).readBack = some v := rfl

/-! `resetBlock` -/

@[simp] theorem resetBlock_status (s : State) : (resetBlock s).status = .reset := rfl
@[simp] theorem resetBlock_lock (s : State) : (resetBlock s).lock = false := rfl
@[simp] theorem resetBlock_pwm (s : State) : (resetBlock s).pwm = .reset := rfl
@[simp] theorem resetBlock_dds (s : State) : (resetBlock s).dds = .reset := rfl
@[simp] theorem resetBlock_events (s : State) : (resetBlock s).events = [] := rfl
@[simp] theorem resetBlock_envHolds (s : State) : (resetBlock s).envHolds = false := rfl
@[simp] theorem resetBlock_cfg (s : State) : (resetBlock s).cfg = s.cfg := rfl
@[simp] theorem resetBlock_pending (s : State) : (resetBlock s).pending = s.pending := rfl
@[simp] theorem resetBlock_readBack (s : State) : (resetBlock s).readBack = none := rfl

end Sys2Proof.Machine
end

