-- ==== Sys2Proof/Laws/Bus.lean ====
section
/-! SUPPORT. The register map and the window, and what one step can do: one inversion lemma for step, one for the
response to each kind of access. -/

namespace Sys2Proof.Machine

/-- The register at a register's own offset is that register (10_state.md R21: no two share one). -/
@[simp] theorem regAt_offset (r : Reg) : regAt r.offset = some r := by
  cases r <;> decide

/-- An offset names a register only if it is that register's. -/
theorem offset_of_regAt {off : Nat} {r : Reg} (h : regAt off = some r) : r.offset = off := by
  simpa using List.find?_some h

/-- Reading a register through the window reads the register (20_memory.md R63). -/
theorem memRead_offset (s : State) (r : Reg) : memRead s r.offset = readReg s r := by
  simp [memRead]

/-- CMD is the register at offset 0 and no other. -/
theorem regAt_eq_cmd {off : Nat} : regAt off = some .cmd ↔ off = 0 :=
  ⟨fun h => (offset_of_regAt h).symm, fun h => by subst h; exact regAt_offset .cmd⟩

/-- Every offset named by an address lies in the window (20_memory.md R60). -/
theorem offset?_lt {addr : HostAddr} {p : Params} {off : Nat} (h : addr.offset? p = some off) : off < 0x200 := by
  cases addr <;> simp only [HostAddr.offset?] at h <;> split at h <;> simp_all

/-- A write to a register other than CMD leaves the lock, the history, env_holds, the parameters, what is pending and
what was read (20_memory.md R64). -/
theorem writeReg_frame (r : Reg) (v : Word) (s : State) :
    (writeReg r v s).lock = s.lock ∧ (writeReg r v s).events = s.events ∧ (writeReg r v s).envHolds = s.envHolds ∧
    (writeReg r v s).cfg = s.cfg ∧ (writeReg r v s).pending = s.pending ∧ (writeReg r v s).readBack = s.readBack := by
  cases r <;> exact ⟨rfl, rfl, rfl, rfl, rfl, rfl⟩

/-- A write to a register other than CMD leaves the snapshots, the counts, their committed copies, RUNNING and
PWM_RES_BITS, and of the DDS channel all but DDS_FREQ and DDS_PHASE (20_memory.md R64). -/
theorem writeReg_units (r : Reg) (v : Word) (s : State) :
    (writeReg r v s).pwm.prev = s.pwm.prev ∧ (writeReg r v s).pwm.regs = s.pwm.regs ∧
    (writeReg r v s).pwm.committed = s.pwm.committed ∧ (writeReg r v s).pwm.running = s.pwm.running ∧
    (writeReg r v s).pwm.resBits = s.pwm.resBits ∧
    (writeReg r v s).dds = { s.dds with freq := (writeReg r v s).dds.freq, phase := (writeReg r v s).dds.phase } := by
  cases r <;> exact ⟨rfl, rfl, rfl, rfl, rfl, rfl⟩

/-- Every command answers a next state (60_exceptions.md R220: the block raises no trap). -/
theorem exec_answers_next (i : Instr) (s : State) : ∃ t, exec i s = .next t := by
  cases i <;> exact ⟨_, rfl⟩

/-- What a step that answers a next state did: nothing was pending, or the head of the list took its effect. -/
theorem step_cases {s t : State} (h : step s = .next t) :
    (s.pending = [] ∧ t = s) ∨
    ∃ st rest, s.pending = st :: rest ∧ respond st { s with pending := rest } = .next t := by
  unfold step advance at h
  split at h
  · exact .inl ⟨‹_›, by cases h; rfl⟩
  · exact .inr ⟨_, _, ‹_›, h⟩

/-- What a HOST read that was answered did (20_memory.md R61, R63, 60_exceptions.md R229). -/
theorem hostRead_cases {addr : HostAddr} {bytes : Nat} {s t : State} (h : hostRead addr bytes s = .next t) :
    ∃ off, addr.offset? s.cfg = some off ∧
      ((Admitted off bytes ∧ t = answerRead (memRead s off) s) ∨
        (¬ Admitted off bytes ∧ t = answerRead 0 (raiseAccessError s))) := by
  unfold hostRead at h
  split at h
  · cases h
  · refine ⟨_, ‹_›, ?_⟩
    split at h
    · exact .inl ⟨‹_›, by cases h; rfl⟩
    · exact .inr ⟨‹_›, by cases h; rfl⟩

/-- What a HOST write that was answered did: an AccessError, a command, an illegal command, a register's own effect, or
nothing at a reserved offset (20_memory.md R61, R64, 40_dispatch.md R120, R122, 60_exceptions.md R229). -/
theorem hostWrite_cases {addr : HostAddr} {bytes : Nat} {v : Word} {s t : State}
    (h : hostWrite addr bytes v s = .next t) :
    ∃ off, addr.offset? s.cfg = some off ∧
      ((¬ Admitted off bytes ∧ t = raiseAccessError s) ∨
        (off = 0 ∧ bytes = 8 ∧ ∃ i, decode v = .ok i ∧ exec i s = .next t) ∨
        (off = 0 ∧ bytes = 8 ∧ (∃ e, decode v = .error e) ∧ t = raiseIllegalCommand (v.extractLsb' 0 8) s) ∨
        (Admitted off bytes ∧ ∃ r, r ≠ .cmd ∧ regAt off = some r ∧ t = writeReg r v s) ∨
        (Admitted off bytes ∧ regAt off = none ∧ t = s)) := by
  unfold hostWrite at h
  split at h
  · cases h
  rename_i off hoff
  refine ⟨off, hoff, ?_⟩
  split at h
  · rename_i ha
    unfold memWrite at h
    split at h
    · rename_i hr
      have h0 := regAt_eq_cmd.mp hr
      unfold dispatch at h
      split at h
      · exact .inr (.inl ⟨h0, ha.1, _, ‹_›, h⟩)
      · exact .inr (.inr (.inl ⟨h0, ha.1, ⟨_, ‹_›⟩, by cases h; rfl⟩))
    · rename_i r hne hr
      exact .inr (.inr (.inr (.inl ⟨ha, r, hne, hr, by cases h; rfl⟩)))
    · exact .inr (.inr (.inr (.inr ⟨ha, ‹_›, by cases h; rfl⟩)))
  · exact .inl ⟨‹_›, by cases h; rfl⟩

/-- The packaged induction over one step: what each kind of change keeps, every step keeps. The changes are the removal
of the head of `pending`, a command, the two error conditions, the answer to a read, a write to a register other than
CMD, the two steps of ENV_BUS, and reset. -/
theorem step_keeps {P : State → Prop}
    (pend : ∀ s l, P s → P { s with pending := l })
    (command : ∀ s i t, P s → exec i s = .next t → P t)
    (illegal : ∀ s op, P s → P (raiseIllegalCommand op s))
    (access : ∀ s, P s → P (raiseAccessError s))
    (answer : ∀ s v, P s → P (answerRead v s))
    (write : ∀ s r v, r ≠ .cmd → P s → P (writeReg r v s))
    (acquire : ∀ s, P s → P (envAcquire s))
    (giveBack : ∀ s, P s → P (envRelease s))
    (reset : ∀ s, P s → P (resetBlock s))
    {s t : State} (hs : P s) (h : step s = .next t) : P t := by
  rcases step_cases h with ⟨_, rfl⟩ | ⟨st, rest, _, hr⟩
  · exact hs
  have hp := pend s rest hs
  cases st with
  | read addr bytes =>
    obtain ⟨_, _, ⟨_, rfl⟩ | ⟨_, rfl⟩⟩ := hostRead_cases hr
    · exact answer _ _ hp
    · exact answer _ _ (access _ hp)
  | write addr bytes v =>
    obtain ⟨_, _, ⟨_, rfl⟩ | ⟨_, _, i, _, he⟩ | ⟨_, _, _, rfl⟩ | ⟨_, r, hne, _, rfl⟩ | ⟨_, _, rfl⟩⟩ := hostWrite_cases hr
    · exact access _ hp
    · exact command _ _ _ hp he
    · exact illegal _ _ hp
    · exact write _ _ _ hne hp
    · exact hp
  | envAcquire => cases hr; exact acquire _ hp
  | envRelease => cases hr; exact giveBack _ hp
  | reset => cases hr; exact reset _ hp

end Sys2Proof.Machine
end

