-- ==== Sys2Proof/Laws/Dds.lean ====
section
/-! SUPPORT. The lock primitives and the lock bracket in one lemma each, and the bits of the configuration word. -/

namespace Sys2Proof.Machine

theorem tryAcquire_free {s : State} (h : s.lock = false) : tryAcquire s = (true, { s with lock := true }) := by
  simp [tryAcquire, h]

theorem tryAcquire_held {s : State} (h : s.lock = true) : tryAcquire s = (false, s) := by
  simp [tryAcquire, h]

/-- A DDS command that finds the lock held is dropped (42_dds.md R171). -/
theorem ddsCommand_dropped {body : State → State} {s : State} (h : s.lock = true) :
    ddsCommand body s = { s with status := { s.status with ddsDone := false } } := by
  simp [ddsCommand, tryAcquire_held h, setDdsDone]

/-- A DDS command that finds the lock free is performed, and gives the lock back (42_dds.md R170). -/
theorem ddsCommand_performed {body : State → State} {s : State} (h : s.lock = false) :
    ddsCommand body s = setDdsDone true (release (body { s with lock := true })) := by
  simp [ddsCommand, tryAcquire_free h]

/-- Bit j of a configuration word whose bit i was set to b. -/
theorem getLsbD_setBit (w : SerialWord) {i : Nat} (hi : i < 16) (b : Bool) (j : Nat) :
    (setBit w i b).getLsbD j = if j = i then b else w.getLsbD j := by
  by_cases hj : j < 16
  · unfold setBit
    cases b <;> by_cases hij : j = i
    · subst hij
      simp [hj]
    · simp [hj, hij]
      intro _
      omega
    · subst hij
      simp [hj]
    · simp [hj, hij]
      omega
  · rw [BitVec.getLsbD_of_ge _ _ (by omega), BitVec.getLsbD_of_ge _ _ (by omega), if_neg (by omega)]

/-- Setting FSELECT, PSELECT, RESET, SLEEP1 or MODE keeps the fixed bits of the configuration word (10_state.md R39). -/
theorem setBit_fixed (w : SerialWord) {i : Nat}
    (h : i = bitFselect ∨ i = bitPselect ∨ i = bitReset ∨ i = bitSleep1 ∨ i = bitMode) (b : Bool) :
    setBit w i b &&& 0xF27D#16 = w &&& 0xF27D#16 := by
  have hb : i < 16 ∧ (0xF27D#16).getLsbD i = false := by
    rcases h with rfl | rfl | rfl | rfl | rfl <;> decide
  refine BitVec.eq_of_getLsbD_eq fun j _ => ?_
  rw [BitVec.getLsbD_and, BitVec.getLsbD_and, getLsbD_setBit w hb.1]
  by_cases hj : j = i
  · simp [hj, hb.2]
  · simp [hj]

/-! Each field of the configuration word after each of the bits is set. -/

@[simp] theorem fselect_setFselect (w : SerialWord) (b : Bool) :
    fselect (setBit w bitFselect b) = b := by simp only [fselect, getLsbD_setBit w (show bitFselect < 16 by decide)]; rfl
@[simp] theorem fselect_setPselect (w : SerialWord) (b : Bool) :
    fselect (setBit w bitPselect b) = fselect w := by simp only [fselect, getLsbD_setBit w (show bitPselect < 16 by decide)]; rfl
@[simp] theorem fselect_setChipReset (w : SerialWord) (b : Bool) :
    fselect (setBit w bitReset b) = fselect w := by simp only [fselect, getLsbD_setBit w (show bitReset < 16 by decide)]; rfl
@[simp] theorem fselect_setChipSleep (w : SerialWord) (b : Bool) :
    fselect (setBit w bitSleep1 b) = fselect w := by simp only [fselect, getLsbD_setBit w (show bitSleep1 < 16 by decide)]; rfl
@[simp] theorem fselect_setChipMode (w : SerialWord) (b : Bool) :
    fselect (setBit w bitMode b) = fselect w := by simp only [fselect, getLsbD_setBit w (show bitMode < 16 by decide)]; rfl
@[simp] theorem pselect_setFselect (w : SerialWord) (b : Bool) :
    pselect (setBit w bitFselect b) = pselect w := by simp only [pselect, getLsbD_setBit w (show bitFselect < 16 by decide)]; rfl
@[simp] theorem pselect_setPselect (w : SerialWord) (b : Bool) :
    pselect (setBit w bitPselect b) = b := by simp only [pselect, getLsbD_setBit w (show bitPselect < 16 by decide)]; rfl
@[simp] theorem pselect_setChipReset (w : SerialWord) (b : Bool) :
    pselect (setBit w bitReset b) = pselect w := by simp only [pselect, getLsbD_setBit w (show bitReset < 16 by decide)]; rfl
@[simp] theorem pselect_setChipSleep (w : SerialWord) (b : Bool) :
    pselect (setBit w bitSleep1 b) = pselect w := by simp only [pselect, getLsbD_setBit w (show bitSleep1 < 16 by decide)]; rfl
@[simp] theorem pselect_setChipMode (w : SerialWord) (b : Bool) :
    pselect (setBit w bitMode b) = pselect w := by simp only [pselect, getLsbD_setBit w (show bitMode < 16 by decide)]; rfl
@[simp] theorem chipReset_setFselect (w : SerialWord) (b : Bool) :
    chipReset (setBit w bitFselect b) = chipReset w := by simp only [chipReset, getLsbD_setBit w (show bitFselect < 16 by decide)]; rfl
@[simp] theorem chipReset_setPselect (w : SerialWord) (b : Bool) :
    chipReset (setBit w bitPselect b) = chipReset w := by simp only [chipReset, getLsbD_setBit w (show bitPselect < 16 by decide)]; rfl
@[simp] theorem chipReset_setChipReset (w : SerialWord) (b : Bool) :
    chipReset (setBit w bitReset b) = b := by simp only [chipReset, getLsbD_setBit w (show bitReset < 16 by decide)]; rfl
@[simp] theorem chipReset_setChipSleep (w : SerialWord) (b : Bool) :
    chipReset (setBit w bitSleep1 b) = chipReset w := by simp only [chipReset, getLsbD_setBit w (show bitSleep1 < 16 by decide)]; rfl
@[simp] theorem chipReset_setChipMode (w : SerialWord) (b : Bool) :
    chipReset (setBit w bitMode b) = chipReset w := by simp only [chipReset, getLsbD_setBit w (show bitMode < 16 by decide)]; rfl
@[simp] theorem chipSleep_setFselect (w : SerialWord) (b : Bool) :
    chipSleep (setBit w bitFselect b) = chipSleep w := by simp only [chipSleep, getLsbD_setBit w (show bitFselect < 16 by decide)]; rfl
@[simp] theorem chipSleep_setPselect (w : SerialWord) (b : Bool) :
    chipSleep (setBit w bitPselect b) = chipSleep w := by simp only [chipSleep, getLsbD_setBit w (show bitPselect < 16 by decide)]; rfl
@[simp] theorem chipSleep_setChipReset (w : SerialWord) (b : Bool) :
    chipSleep (setBit w bitReset b) = chipSleep w := by simp only [chipSleep, getLsbD_setBit w (show bitReset < 16 by decide)]; rfl
@[simp] theorem chipSleep_setChipSleep (w : SerialWord) (b : Bool) :
    chipSleep (setBit w bitSleep1 b) = b := by simp only [chipSleep, getLsbD_setBit w (show bitSleep1 < 16 by decide)]; rfl
@[simp] theorem chipSleep_setChipMode (w : SerialWord) (b : Bool) :
    chipSleep (setBit w bitMode b) = chipSleep w := by simp only [chipSleep, getLsbD_setBit w (show bitMode < 16 by decide)]; rfl
@[simp] theorem chipMode_setFselect (w : SerialWord) (b : Bool) :
    chipMode (setBit w bitFselect b) = chipMode w := by simp only [chipMode, getLsbD_setBit w (show bitFselect < 16 by decide)]; rfl
@[simp] theorem chipMode_setPselect (w : SerialWord) (b : Bool) :
    chipMode (setBit w bitPselect b) = chipMode w := by simp only [chipMode, getLsbD_setBit w (show bitPselect < 16 by decide)]; rfl
@[simp] theorem chipMode_setChipReset (w : SerialWord) (b : Bool) :
    chipMode (setBit w bitReset b) = chipMode w := by simp only [chipMode, getLsbD_setBit w (show bitReset < 16 by decide)]; rfl
@[simp] theorem chipMode_setChipSleep (w : SerialWord) (b : Bool) :
    chipMode (setBit w bitSleep1 b) = chipMode w := by simp only [chipMode, getLsbD_setBit w (show bitSleep1 < 16 by decide)]; rfl
@[simp] theorem chipMode_setChipMode (w : SerialWord) (b : Bool) :
    chipMode (setBit w bitMode b) = b := by simp only [chipMode, getLsbD_setBit w (show bitMode < 16 by decide)]; rfl

/-! The configuration word with each of the bits set or cleared, as a mask. -/

theorem setFselect_true (w : SerialWord) : setBit w bitFselect true = w ||| 0x0800 := rfl
theorem setFselect_false (w : SerialWord) : setBit w bitFselect false = w &&& 0xF7FF := rfl
theorem setPselect_true (w : SerialWord) : setBit w bitPselect true = w ||| 0x0400 := rfl
theorem setPselect_false (w : SerialWord) : setBit w bitPselect false = w &&& 0xFBFF := rfl
theorem setChipReset_true (w : SerialWord) : setBit w bitReset true = w ||| 0x0100 := rfl
theorem setChipReset_false (w : SerialWord) : setBit w bitReset false = w &&& 0xFEFF := rfl
theorem setChipSleep_true (w : SerialWord) : setBit w bitSleep1 true = w ||| 0x0080 := rfl
theorem setChipSleep_false (w : SerialWord) : setBit w bitSleep1 false = w &&& 0xFF7F := rfl
theorem setChipMode_true (w : SerialWord) : setBit w bitMode true = w ||| 0x0002 := rfl
theorem setChipMode_false (w : SerialWord) : setBit w bitMode false = w &&& 0xFFFD := rfl

/-! The shadows of the ping-pong pairs. -/

@[simp] theorem freqShadow_setFreqShadow (d : Dds) (i j : Bool) (v : FreqWord) :
    (d.setFreqShadow i v).freqShadow j = if j = i then v else d.freqShadow j := by
  cases i <;> cases j <;> rfl
@[simp] theorem phaseShadow_setPhaseShadow (d : Dds) (i j : Bool) (p : PhaseWord) :
    (d.setPhaseShadow i p).phaseShadow j = if j = i then p else d.phaseShadow j := by
  cases i <;> cases j <;> rfl
/-! Loading a shadow leaves every other DDS register. -/

@[simp] theorem setFreqShadow_freq (d : Dds) (i : Bool) (v : FreqWord) : (d.setFreqShadow i v).freq = d.freq := by
  cases i <;> rfl
@[simp] theorem setFreqShadow_freqPrev (d : Dds) (i : Bool) (v : FreqWord) : (d.setFreqShadow i v).freqPrev = d.freqPrev := by
  cases i <;> rfl
@[simp] theorem setFreqShadow_phase (d : Dds) (i : Bool) (v : FreqWord) : (d.setFreqShadow i v).phase = d.phase := by
  cases i <;> rfl
@[simp] theorem setFreqShadow_kind (d : Dds) (i : Bool) (v : FreqWord) : (d.setFreqShadow i v).kind = d.kind := by
  cases i <;> rfl
@[simp] theorem setFreqShadow_ctrl (d : Dds) (i : Bool) (v : FreqWord) : (d.setFreqShadow i v).ctrl = d.ctrl := by
  cases i <;> rfl
@[simp] theorem setFreqShadow_phase0 (d : Dds) (i : Bool) (v : FreqWord) : (d.setFreqShadow i v).phase0 = d.phase0 := by
  cases i <;> rfl
@[simp] theorem setFreqShadow_phase1 (d : Dds) (i : Bool) (v : FreqWord) : (d.setFreqShadow i v).phase1 = d.phase1 := by
  cases i <;> rfl
@[simp] theorem setPhaseShadow_freq (d : Dds) (i : Bool) (p : PhaseWord) : (d.setPhaseShadow i p).freq = d.freq := by
  cases i <;> rfl
@[simp] theorem setPhaseShadow_freqPrev (d : Dds) (i : Bool) (p : PhaseWord) : (d.setPhaseShadow i p).freqPrev = d.freqPrev := by
  cases i <;> rfl
@[simp] theorem setPhaseShadow_phase (d : Dds) (i : Bool) (p : PhaseWord) : (d.setPhaseShadow i p).phase = d.phase := by
  cases i <;> rfl
@[simp] theorem setPhaseShadow_kind (d : Dds) (i : Bool) (p : PhaseWord) : (d.setPhaseShadow i p).kind = d.kind := by
  cases i <;> rfl
@[simp] theorem setPhaseShadow_ctrl (d : Dds) (i : Bool) (p : PhaseWord) : (d.setPhaseShadow i p).ctrl = d.ctrl := by
  cases i <;> rfl
@[simp] theorem setPhaseShadow_freq0 (d : Dds) (i : Bool) (p : PhaseWord) : (d.setPhaseShadow i p).freq0 = d.freq0 := by
  cases i <;> rfl
@[simp] theorem setPhaseShadow_freq1 (d : Dds) (i : Bool) (p : PhaseWord) : (d.setPhaseShadow i p).freq1 = d.freq1 := by
  cases i <;> rfl

/-- The clamped frequency word fits, so nothing is cut off (42_dds.md R172, 00_scope.md R9). -/
theorem clampedFreq_toNat (cfg : Params) (d : Dds) :
    (clampedFreq cfg d).toNat =
      clamp d.freq.toNat (kindLimits cfg d.kind).lo.toNat (kindLimits cfg d.kind).hi.toNat := by
  have h1 := (kindLimits cfg d.kind).hi.isLt
  have h2 := clamp_le_hi d.freq.toNat (kindLimits cfg d.kind).lo.toNat (kindLimits cfg d.kind).hi.toNat
  simp only [clampedFreq, BitVec.toNat_ofNat]
  omega

/-! The six bodies, each as one change of the state: the words it sends and the registers it writes (42_dds.md R172 to
R177). -/

theorem setFreqBody_eq (s : State) :
    setFreqBody s = { s with
      events := s.events ++ [.serial (freqWordLo (!fselect s.dds.ctrl) (clampedFreq s.cfg s.dds)),
        .serial (freqWordHi (!fselect s.dds.ctrl) (clampedFreq s.cfg s.dds)),
        .serial (setBit s.dds.ctrl bitFselect (!fselect s.dds.ctrl))]
      dds := { s.dds.setFreqShadow (!fselect s.dds.ctrl) (clampedFreq s.cfg s.dds) with
        ctrl := setBit s.dds.ctrl bitFselect (!fselect s.dds.ctrl)
        freq := clampedFreq s.cfg s.dds
        freqPrev := clampedFreq s.cfg s.dds } } := by
  simp [setFreqBody, serialWrite, sendCtrl, emit]

theorem setPhaseBody_eq (s : State) :
    setPhaseBody s = { s with
      events := s.events ++ [.serial (phaseWord (!pselect s.dds.ctrl) s.dds.phase),
        .serial (setBit s.dds.ctrl bitPselect (!pselect s.dds.ctrl))]
      dds := { s.dds.setPhaseShadow (!pselect s.dds.ctrl) s.dds.phase with
        ctrl := setBit s.dds.ctrl bitPselect (!pselect s.dds.ctrl) } } := by
  simp [setPhaseBody, serialWrite, sendCtrl, emit]

theorem setWaveformBody_eq (k : Kind) (s : State) :
    setWaveformBody k s = { s with
      events := s.events ++ [.serial (setBit s.dds.ctrl bitMode (modeOf k))]
      dds := { s.dds with kind := k, ctrl := setBit s.dds.ctrl bitMode (modeOf k) } } := rfl

theorem stopBody_eq (s : State) :
    stopBody s = { s with
      events := s.events ++ [.serial (setBit s.dds.ctrl bitReset true)]
      dds := { s.dds with ctrl := setBit s.dds.ctrl bitReset true } } := rfl

theorem suspendBody_eq (s : State) :
    suspendBody s = { s with
      events := s.events ++ [.serial (setBit s.dds.ctrl bitSleep1 true)]
      dds := { s.dds with ctrl := setBit s.dds.ctrl bitSleep1 true } } := rfl

theorem resumeBody_eq (s : State) :
    resumeBody s = { s with
      events := s.events ++ [.serial (setBit (setBit s.dds.ctrl bitReset false) bitSleep1 false)]
      dds := { s.dds with ctrl := setBit (setBit s.dds.ctrl bitReset false) bitSleep1 false } } := rfl

/-- Every DDS command is one body in the lock bracket (42_dds.md R170). -/
theorem exec_dds {i : Instr} (h : i.IsDds) :
    ∃ body : State → State, ∀ s, exec i s = .next (ddsCommand body s) := by
  cases i <;> simp only [Instr.IsDds] at h <;> exact ⟨_, fun _ => rfl⟩

end Sys2Proof.Machine
end

