-- ==== Sys2Proof/Laws/PerInstr.lean ====
section
/-! SUPPORT. The per-instruction families of LAWS.json. EncodeLegal: the encoder gives a legal word whose OP and ARG are
the command's and whose RSV is 0 (30_encoding.md R90, R93). -/

namespace Sys2Proof.Laws.EncodeLegal

/-- The command's word is legal and holds its OP and ARG. -/
def Statement (i : Instr) : Prop := LegalWord (encode i) ∧ opOf (encode i) = i.op ∧ argOf (encode i) = i.arg

theorem nop : Statement .nop := by unfold Statement; decide
theorem pwmUpdate (force : Bool) : Statement (.pwmUpdate force) := by cases force <;> (unfold Statement; decide)
theorem pwmRun : Statement .pwmRun := by unfold Statement; decide
theorem pwmStop : Statement .pwmStop := by unfold Statement; decide
theorem ddsSetFreq : Statement .ddsSetFreq := by unfold Statement; decide
theorem ddsSetPhase : Statement .ddsSetPhase := by unfold Statement; decide
theorem ddsSetWaveform (kind : Kind) : Statement (.ddsSetWaveform kind) := by cases kind <;> (unfold Statement; decide)
theorem ddsStop : Statement .ddsStop := by unfold Statement; decide
theorem ddsSuspend : Statement .ddsSuspend := by unfold Statement; decide
theorem ddsResume : Statement .ddsResume := by unfold Statement; decide
theorem busTrylock : Statement .busTrylock := by unfold Statement; decide
theorem busUnlock : Statement .busUnlock := by unfold Statement; decide

end Sys2Proof.Laws.EncodeLegal
end

