-- ==== Sys2Proof/Laws/Pwm.lean ====
section
/-! SUPPORT. What one reconciliation pass does: the counts fit their registers and add up, the derived values fit
theirs, and PWM_UPDATE as a whole in one lemma. -/

namespace Sys2Proof.Machine

theorem countsOf_period_toNat {p h l : Nat} (hp : p ≤ regMax) : (countsOf p h l).period.toNat = p := by
  have := regMax_eq
  simp only [countsOf, BitVec.toNat_ofNat]
  omega

theorem countsOf_high_toNat {p h l : Nat} (hh : h ≤ regMax) : (countsOf p h l).high.toNat = h := by
  have := regMax_eq
  simp only [countsOf, BitVec.toNat_ofNat]
  omega

theorem countsOf_low_toNat {p h l : Nat} (hl : l ≤ regMax) : (countsOf p h l).low.toNat = l := by
  have := regMax_eq
  simp only [countsOf, BitVec.toNat_ofNat]
  omega

/-- A count is at most REG_MAX. -/
theorem count_le_regMax (c : Count) : c.toNat ≤ regMax := by
  have := c.isLt
  have := regMax_eq
  omega

/-- `apply_duty` on a period that fits (41_pwm.md R134). -/
theorem applyDuty_spec {p d : Nat} (hp : p ≤ regMax) :
    (applyDuty p d).period.toNat = p ∧ (applyDuty p d).high.toNat = rdiv (p * min d 1000) 1000 ∧
    (applyDuty p d).low.toNat = p - rdiv (p * min d 1000) 1000 ∧ rdiv (p * min d 1000) 1000 ≤ p := by
  have h : rdiv (p * min d 1000) 1000 ≤ p := rdiv_mul_le (by omega) (by omega)
  exact ⟨countsOf_period_toNat hp, countsOf_high_toNat (by omega), countsOf_low_toNat (by omega), h⟩

/-- The period of a request, before the nudge, is 1 to REG_MAX (41_pwm.md R132). -/
theorem periodOf_bounds (clk f : Nat) : 1 ≤ periodOf clk f ∧ periodOf clk f ≤ regMax := by
  have := regMax_eq
  unfold periodOf
  split
  · omega
  · exact ⟨lo_le_clamp (by omega), clamp_le_hi _ _ _⟩

/-- The nudge keeps a period within 1 to REG_MAX (41_pwm.md R133). -/
theorem nudgePeriod_bounds {pc f fp p0 : Nat} (h1 : 1 ≤ pc) (h2 : pc ≤ regMax) :
    1 ≤ nudgePeriod pc f fp p0 ∧ nudgePeriod pc f fp p0 ≤ regMax := by
  have := regMax_eq
  unfold nudgePeriod
  split
  · split <;> omega
  · omega

theorem countOfTime_le (clk t : Nat) : countOfTime clk t ≤ regMax := Nat.min_le_right _ _

theorem nudgeCount_le {c t tp held : Nat} (h : c ≤ regMax) : nudgeCount c t tp held ≤ regMax := by
  unfold nudgeCount
  split
  · split <;> omega
  · omega

theorem linkedSetHigh_spec (r : Counts) (c : Nat) :
    (linkedSetHigh r c).period = r.period ∧ (linkedSetHigh r c).high.toNat = min c r.period.toNat ∧
    (linkedSetHigh r c).low.toNat = r.period.toNat - min c r.period.toNat := by
  have := count_le_regMax r.period
  exact ⟨by simp [linkedSetHigh, countsOf], countsOf_high_toNat (by omega), countsOf_low_toNat (by omega)⟩

theorem linkedSetLow_spec (r : Counts) (c : Nat) :
    (linkedSetLow r c).period = r.period ∧ (linkedSetLow r c).low.toNat = min c r.period.toNat ∧
    (linkedSetLow r c).high.toNat = r.period.toNat - min c r.period.toNat := by
  have := count_le_regMax r.period
  exact ⟨by simp [linkedSetLow, countsOf], countsOf_low_toNat (by omega), countsOf_high_toNat (by omega)⟩

/-- The edited count and its counterpart add up to 1 to REG_MAX (41_pwm.md R138). -/
theorem unlinkedEdit_bounds {c other : Nat} (h : other ≤ regMax) :
    1 ≤ unlinkedEdit c other + other ∧ unlinkedEdit c other + other ≤ regMax := by
  have := regMax_eq
  simp only [unlinkedEdit]
  split <;> omega

theorem unlinkedSetHigh_spec (r : Counts) (c : Nat) :
    (unlinkedSetHigh r c).low = r.low ∧ (unlinkedSetHigh r c).high.toNat = unlinkedEdit c r.low.toNat ∧
    (unlinkedSetHigh r c).period.toNat = unlinkedEdit c r.low.toNat + r.low.toNat := by
  have := unlinkedEdit_bounds (c := c) (count_le_regMax r.low)
  exact ⟨by simp [unlinkedSetHigh, countsOf], countsOf_high_toNat (by omega), countsOf_period_toNat (by omega)⟩

theorem unlinkedSetLow_spec (r : Counts) (c : Nat) :
    (unlinkedSetLow r c).high = r.high ∧ (unlinkedSetLow r c).low.toNat = unlinkedEdit c r.high.toNat ∧
    (unlinkedSetLow r c).period.toNat = unlinkedEdit c r.high.toNat + r.high.toNat := by
  have := unlinkedEdit_bounds (c := c) (count_le_regMax r.high)
  refine ⟨by simp [unlinkedSetLow, countsOf], countsOf_low_toNat (by omega), ?_⟩
  rw [Nat.add_comm]
  exact countsOf_period_toNat (by omega)

/-- The counts after a branch add up to the period (41_pwm.md R145.2). -/
theorem branchCounts_sum {b : Branch} (clk : Nat) (p : Pwm) (hb : b ≠ .none) :
    (branchCounts b clk p).high.toNat + (branchCounts b clk p).low.toNat = (branchCounts b clk p).period.toNat := by
  cases b with
  | none => exact absurd rfl hb
  | freq =>
    have hp := periodOf_bounds clk p.req.freq.toNat
    obtain ⟨h1, h2, h3, h4⟩ := applyDuty_spec (d := p.req.duty.toNat)
      (nudgePeriod_bounds (f := p.req.freq.toNat) (fp := p.prev.freq.toNat) (p0 := p.regs.period.toNat) hp.1 hp.2).2
    simp only [branchCounts, freqBranch]
    omega
  | duty =>
    obtain ⟨h1, h2, h3, h4⟩ := applyDuty_spec (d := p.req.duty.toNat) (count_le_regMax p.regs.period)
    simp only [branchCounts, dutyBranch]
    omega
  | high =>
    simp only [branchCounts, highBranch]
    split
    · obtain ⟨h1, h2, h3⟩ := linkedSetHigh_spec p.regs
        (nudgeCount (countOfTime clk p.req.th.toNat) p.req.th.toNat p.prev.th.toNat p.regs.high.toNat)
      rw [h2, h3, h1]
      omega
    · obtain ⟨h1, h2, h3⟩ := unlinkedSetHigh_spec p.regs
        (nudgeCount (countOfTime clk p.req.th.toNat) p.req.th.toNat p.prev.th.toNat p.regs.high.toNat)
      rw [h2, h3, h1]
  | low =>
    simp only [branchCounts, lowBranch]
    split
    · obtain ⟨h1, h2, h3⟩ := linkedSetLow_spec p.regs
        (nudgeCount (countOfTime clk p.req.tl.toNat) p.req.tl.toNat p.prev.tl.toNat p.regs.low.toNat)
      rw [h2, h3, h1]
      omega
    · obtain ⟨h1, h2, h3⟩ := unlinkedSetLow_spec p.regs
        (nudgeCount (countOfTime clk p.req.tl.toNat) p.req.tl.toNat p.prev.tl.toNat p.regs.low.toNat)
      rw [h2, h3, h1, Nat.add_comm]

/-- The derived values fit their 64-bit registers, so nothing is cut off (00_scope.md R9, 41_pwm.md R145.5). -/
theorem derivedRequests_toNat (clk : Count) (r : Counts) :
    (derivedRequests clk.toNat r).freq.toNat =
      (if r.period.toNat = 0 then 0 else rdiv (10 * clk.toNat) r.period.toNat) ∧
    (derivedRequests clk.toNat r).duty.toNat =
      (if r.period.toNat = 0 then 0 else rdiv (1000 * r.high.toNat) r.period.toNat) ∧
    (derivedRequests clk.toNat r).th.toNat = rdiv (r.high.toNat * 1000000000) clk.toNat ∧
    (derivedRequests clk.toNat r).tl.toNat = rdiv (r.low.toNat * 1000000000) clk.toNat := by
  have hc := clk.isLt
  have hh := r.high.isLt
  have hl := r.low.isLt
  have h1 := rdiv_le (10 * clk.toNat) r.period.toNat
  have h2 := rdiv_le (1000 * r.high.toNat) r.period.toNat
  have h3 := rdiv_le (r.high.toNat * 1000000000) clk.toNat
  have h4 := rdiv_le (r.low.toNat * 1000000000) clk.toNat
  refine ⟨?_, ?_, ?_, ?_⟩ <;> simp only [derivedRequests, BitVec.toNat_ofNat] <;> apply Nat.mod_eq_of_lt
  · split <;> omega
  · split <;> omega
  · omega
  · omega

/-- The branch that select_branch names, and what it says of the fields (41_pwm.md R131). -/
theorem selectBranch_none {force : Bool} {p : Pwm} (h : selectBranch force p = .none) :
    force = false ∧ p.req = p.prev := by
  unfold selectBranch at h
  split at h
  · cases h
  split at h
  · cases h
  split at h
  · cases h
  split at h
  · cases h
  rename_i h1 h2 h3 h4
  simp only [not_or, Bool.not_eq_true, ne_eq, Decidable.not_not] at h1 h2 h3 h4
  refine ⟨h1.1, ?_⟩
  cases hr : p.req
  cases hp : p.prev
  simp_all

/-- No edit and no force: no branch (41_pwm.md R131). -/
theorem selectBranch_of_no_edit {p : Pwm} (h : p.req = p.prev) : selectBranch false p = .none := by
  simp [selectBranch, h]

/-- The registers after `commit()`, and what it adds to the history (41_pwm.md R142). -/
theorem commit_spec (s : State) :
    commit s = { s with
      pwm := { s.pwm with committed := s.pwm.regs }
      events := s.events ++
        (if commitList s.pwm.regs s.pwm.committed = [] then [] else [.commit (commitList s.pwm.regs s.pwm.committed)]) } := by
  unfold commit
  split
  · rename_i h
    have : s.pwm.regs = s.pwm.committed := by
      simp only [commitList, changedPair, ne_eq, ite_not, List.append_eq_nil_iff] at h
      cases hr : s.pwm.regs
      cases hc : s.pwm.committed
      simp_all
    obtain ⟨st, lk, ⟨ln, rn, rq, pv, rg, cm, rb⟩, d, es, eh, cf, pd, rk⟩ := s
    simp_all
  · rename_i l hl
    simp only [if_neg hl]
    rfl

/-- PWM_UPDATE in one lemma: no branch and only LAST_BRANCH changes, or a branch b and its whole effect
(41_pwm.md R130). -/
theorem pwmUpdate_cases (force : Bool) (s : State) :
    (selectBranch force s.pwm = .none ∧
      pwmUpdate force s = { s with status := { s.status with lastBranch := .none } }) ∨
    (selectBranch force s.pwm ≠ .none ∧
      pwmUpdate force s = commit
        { s with
          status := { s.status with lastBranch := selectBranch force s.pwm }
          pwm := reconcile (selectBranch force s.pwm) s.cfg s.pwm }) := by
  unfold pwmUpdate
  cases h : selectBranch force s.pwm with
  | none => exact .inl ⟨rfl, rfl⟩
  | freq => exact .inr ⟨by simp, rfl⟩
  | duty => exact .inr ⟨by simp, rfl⟩
  | high => exact .inr ⟨by simp, rfl⟩
  | low => exact .inr ⟨by simp, rfl⟩

@[simp] theorem reconcile_regs (b : Branch) (cfg : Params) (p : Pwm) :
    (reconcile b cfg p).regs = branchCounts b cfg.clk.toNat p := rfl
@[simp] theorem reconcile_committed (b : Branch) (cfg : Params) (p : Pwm) :
    (reconcile b cfg p).committed = p.committed := rfl
@[simp] theorem reconcile_linked (b : Branch) (cfg : Params) (p : Pwm) : (reconcile b cfg p).linked = p.linked := rfl
@[simp] theorem reconcile_running (b : Branch) (cfg : Params) (p : Pwm) : (reconcile b cfg p).running = p.running := rfl
@[simp] theorem reconcile_prev (b : Branch) (cfg : Params) (p : Pwm) :
    (reconcile b cfg p).prev = derivedRequests cfg.clk.toNat (branchCounts b cfg.clk.toNat p) := rfl
@[simp] theorem reconcile_req (b : Branch) (cfg : Params) (p : Pwm) :
    (reconcile b cfg p).req =
      if cfg.snapshotMode = .writeback then derivedRequests cfg.clk.toNat (branchCounts b cfg.clk.toNat p) else p.req :=
  rfl

/-- PWM_RES_BITS after a branch is the bit length of the period, at most 32 (41_pwm.md R141). -/
theorem reconcile_resBits_toNat (b : Branch) (cfg : Params) (p : Pwm) :
    (reconcile b cfg p).resBits.toNat = bitLength (branchCounts b cfg.clk.toNat p).period.toNat := by
  have h := bitLength_le (branchCounts b cfg.clk.toNat p).period.isLt
  simp only [reconcile, storeSnapshot, BitVec.toNat_ofNat]
  omega

/-- PWM_RUN and PWM_STOP in one lemma: nothing to change, or RUNNING and one Enable event (41_pwm.md R143, R144). -/
theorem setRunning_cases (b : Bool) (s : State) :
    (s.pwm.running = b ∧ setRunning b s = s) ∨
    (s.pwm.running ≠ b ∧ setRunning b s =
      { s with pwm := { s.pwm with running := b }, events := s.events ++ [.enable b] }) := by
  by_cases h : s.pwm.running = b
  · exact .inl ⟨h, by simp [setRunning, h]⟩
  · exact .inr ⟨h, by simp only [setRunning, if_neg h]; rfl⟩

end Sys2Proof.Machine
end

