-- ==== Sys2Proof/Tests/Slice0.lean ====
section
/-! SUPPORT. Small tests on literal values: ill-formed words and parameters, decoding of written-out words, one step of
each command (expected values from spec/95_test_vectors.md, named by vector), and for every statement with hypotheses a
witness that meets them. -/

namespace Sys2Proof.Tests

open Sys2Proof.Machine

/-! ## Helpers -/

/-- The machine after reset with the parameter set TP1 of 95_test_vectors.md. -/
def base : State := { State.reset with cfg := Config.tp1 }

/-- `base` with one thing to happen next. -/
def facing (st : Stimulus) : State := { base with pending := [st] }

/-- `base` with this configuration word and kind. -/
def withCtrl (ctrl : SerialWord) (k : Kind) : State := { base with dds := { base.dds with ctrl := ctrl, kind := k } }

/-- `base` with these PWM requests, snapshots and registers, in the mode given. -/
def withPwm (linked : Bool) (req prev : Requests) (regs : Counts) : State :=
  { base with pwm := { base.pwm with linked := linked, req := req, prev := prev, regs := regs, committed := regs } }

/-- The lock is held. -/
def held (s : State) : State := { s with lock := true }

/-- The next state, if there is one. -/
def nextOf (o : Host.Outcome State Fault Refusal) : Option State :=
  match o with
  | .next t => some t
  | .fault _ => none
  | .refused _ => none

/-- The state after one command. -/
def ran (i : Instr) (s : State) : Option State := nextOf (exec i s)

/-- The state after one stimulus to `base`. -/
def after (st : Stimulus) : Option State := nextOf (step (facing st))

/-! ## What is ill formed (30_encoding.md R93, 00_scope.md R6) -/

theorem test_unassigned_op_illegal : ¬ LegalWord 0x04#64 ∧ ¬ LegalWord 0x16#64 ∧ ¬ LegalWord 0xFF#64 := by decide
theorem test_rsv_bit_illegal : ¬ LegalWord 0x10000#64 ∧ ¬ LegalWord 0x8000000000000000#64 := by decide
theorem test_arg_bit_illegal : ¬ LegalWord 0x0100#64 ∧ ¬ LegalWord 0x0201#64 ∧ ¬ LegalWord 0x0412#64 := by decide
theorem test_kind_three_illegal : ¬ LegalWord 0x0312#64 := by decide
theorem test_legal_words : LegalWord 0x0101#64 ∧ LegalWord 0x0212#64 ∧ LegalWord 0x21#64 := by decide

theorem test_tp1_wellFormed : Config.tp1.WellFormed := by decide
theorem test_clk_zero_illFormed : ¬ { Config.tp1 with clk := 0 }.WellFormed := by decide
theorem test_freq_limits_illFormed : ¬ { Config.tp1 with freq := ⟨2, 1⟩ }.WellFormed := by decide
theorem test_duty_limits_illFormed : ¬ { Config.tp1 with duty := ⟨2, 1⟩ }.WellFormed := by decide
theorem test_duty_above_1000_illFormed : ¬ { Config.tp1 with duty := ⟨0, 1001⟩ }.WellFormed := by decide
theorem test_th_limits_illFormed : ¬ { Config.tp1 with th := ⟨2, 1⟩ }.WellFormed := by decide
theorem test_tl_limits_illFormed : ¬ { Config.tp1 with tl := ⟨2, 1⟩ }.WellFormed := by decide
theorem test_dds_dc_limits_illFormed : ¬ { Config.tp1 with ddsDc := ⟨2, 1⟩ }.WellFormed := by decide
theorem test_dds_triangle_limits_illFormed : ¬ { Config.tp1 with ddsTriangle := ⟨2, 1⟩ }.WellFormed := by decide
theorem test_dds_sine_limits_illFormed : ¬ { Config.tp1 with ddsSine := ⟨2, 1⟩ }.WellFormed := by decide
theorem test_base_illFormed : ¬ { Config.tp1 with blockBase := 0x100 }.WellFormed := by decide

/-! ## Decoding (30_encoding.md R92; the binary words are written from R90: RSV, ARG, OP) -/

theorem test_decode_nop : decodeTableWord 64 0b00000000_00000000 = some .nop := by decide
theorem test_decode_pwmUpdate : decodeTableWord 64 0b00000000_00000001 = some (.pwmUpdate false) := by decide
theorem test_decode_pwmUpdate_force : decodeTableWord 64 0b00000001_00000001 = some (.pwmUpdate true) := by decide
theorem test_decode_pwmRun : decodeTableWord 64 0b00000000_00000010 = some .pwmRun := by decide
theorem test_decode_pwmStop : decodeTableWord 64 0b00000000_00000011 = some .pwmStop := by decide
theorem test_decode_ddsSetFreq : decodeTableWord 64 0b00000000_00010000 = some .ddsSetFreq := by decide
theorem test_decode_ddsSetPhase : decodeTableWord 64 0b00000000_00010001 = some .ddsSetPhase := by decide
theorem test_decode_waveform_dc : decodeTableWord 64 0b00000000_00010010 = some (.ddsSetWaveform .dc) := by decide
theorem test_decode_waveform_triangle :
    decodeTableWord 64 0b00000001_00010010 = some (.ddsSetWaveform .triangle) := by decide
theorem test_decode_waveform_sine : decodeTableWord 64 0b00000010_00010010 = some (.ddsSetWaveform .sine) := by decide
theorem test_decode_ddsStop : decodeTableWord 64 0b00000000_00010011 = some .ddsStop := by decide
theorem test_decode_ddsSuspend : decodeTableWord 64 0b00000000_00010100 = some .ddsSuspend := by decide
theorem test_decode_ddsResume : decodeTableWord 64 0b00000000_00010101 = some .ddsResume := by decide
theorem test_decode_busTrylock : decodeTableWord 64 0b00000000_00100000 = some .busTrylock := by decide
theorem test_decode_busUnlock : decodeTableWord 64 0b00000000_00100001 = some .busUnlock := by decide

/-- Vectors IL2 to IL10: each illegal word is rejected by the condition it breaks. -/
theorem test_decode_illegal :
    [0x04#64, 0x16, 0xFF, 0x0100, 0x0201, 0x0113, 0x10000, 0x0422, 0x0312].map decode =
    [.error .unassignedOp, .error .unassignedOp, .error .unassignedOp, .error .argNotZero, .error .argNotZero,
     .error .argNotZero, .error .rsvNotZero, .error .unassignedOp, .error .kindThree] := by decide

theorem test_decode_short : decodeBytes [0x13, 0x00] = .error .wrongLength := by decide

/-- The word placed for the next step is the one that step runs, with the machine's own unknown parameters. -/
theorem test_fetch_word :
    (nextOf (step (State.reset.withFetchWord 64 0x20))).map (fun t => (t.lock, t.status.lockOk, t.pending)) =
    some (true, true, []) := by decide

/-! ## One step of each command -/

/-- IL1. -/
theorem test_nop : after (.write (.block 0) 8 0) = some base := by decide

/-- T4: the period of 10,000,001 dHz collapses onto 80 and is nudged to 79; 487.5 ns is stored as 488. -/
theorem test_pwmUpdate_T4 :
    (ran (.pwmUpdate false) (withPwm true ⟨10000001, 500, 500, 500⟩ ⟨10000000, 500, 500, 500⟩ ⟨80, 40, 40⟩)).map
      (fun t => (t.status.lastBranch, t.pwm.regs, t.pwm.req, t.pwm.resBits, t.events)) =
    some (.freq, ⟨79, 40, 39⟩, ⟨10126582, 506, 500, 488⟩, 7, [.commit [(.period, 79), (.low, 39)]]) := by decide

/-- T14: unlinked, the low count is reduced so that the sum is REG_MAX. -/
theorem test_pwmUpdate_T14 :
    (ran (.pwmUpdate false) (withPwm false ⟨0, 1000, 50000000000, 10000000000⟩ ⟨0, 1000, 50000000000, 1250⟩
      ⟨4000000100, 4000000000, 100⟩)).map (fun t => (t.status.lastBranch, t.pwm.regs, t.pwm.prev, t.pwm.resBits)) =
    some (.low, ⟨4294967295, 4000000000, 294967295⟩, ⟨0, 931, 50000000000, 3687091188⟩, 32) := by decide +kernel

/-- RS1. -/
theorem test_pwmRun : (ran .pwmRun base).map (fun t => (t.pwm.running, t.events)) = some (true, [.enable true]) := by
  decide
/-- RS2. -/
theorem test_pwmRun_again :
    (ran .pwmRun { base with pwm := { base.pwm with running := true } }).map (fun t => (t.pwm.running, t.events)) =
    some (true, []) := by decide
/-- RS3. -/
theorem test_pwmStop :
    (ran .pwmStop { base with pwm := { base.pwm with running := true } }).map (fun t => (t.pwm.running, t.events)) =
    some (false, [.enable false]) := by decide
/-- RS4. -/
theorem test_pwmStop_again : (ran .pwmStop base).map (fun t => (t.pwm.running, t.events)) = some (false, []) := by
  decide

/-- DV3. -/
theorem test_ddsSetFreq_DV3 :
    (ran .ddsSetFreq { withCtrl 0x2000 .sine with dds := { (withCtrl 0x2000 .sine).dds with freq := 0x0ABCDEF } }).map
      (fun t => (t.events, t.dds.ctrl, t.dds.freq0, t.dds.freq1, t.dds.freqPrev)) =
    some ([.serial 0x8DEF, .serial 0x82AF, .serial 0x2800], 0x2800, 0, 0x0ABCDEF, 0x0ABCDEF) := by decide
/-- DV9: with both DC limits 0 the request is clamped to 0 and written back. -/
theorem test_ddsSetFreq_DV9 :
    (ran .ddsSetFreq { withCtrl 0x2102 .dc with
      cfg := { Config.tp1 with ddsDc := ⟨0, 0⟩ }
      dds := { (withCtrl 0x2102 .dc).dds with freq := 0x1234567 } }).map (fun t => (t.events, t.dds.ctrl, t.dds.freq)) =
    some ([.serial 0x8000, .serial 0x8000, .serial 0x2902], 0x2902, 0) := by decide

/-- DV5. -/
theorem test_ddsSetPhase_DV5 :
    (ran .ddsSetPhase { withCtrl 0x2000 .sine with dds := { (withCtrl 0x2000 .sine).dds with phase := 0x800 } }).map
      (fun t => (t.events, t.dds.ctrl, t.dds.phase0, t.dds.phase1)) =
    some ([.serial 0xE800, .serial 0x2400], 0x2400, 0, 0x800) := by decide
/-- DV5b. -/
theorem test_ddsSetPhase_DV5b :
    (ran .ddsSetPhase { withCtrl 0x2400 .sine with dds := { (withCtrl 0x2400 .sine).dds with phase := 0xFFF } }).map
      (fun t => (t.events, t.dds.ctrl, t.dds.phase0)) = some ([.serial 0xCFFF, .serial 0x2000], 0x2000, 0xFFF) := by
  decide

/-- DV6c: DDS_STATE reads 0x24. -/
theorem test_ddsSetWaveform_DV6c :
    (ran (.ddsSetWaveform .dc) (withCtrl 0x2002 .triangle)).map (fun t => (t.events, memRead t 0x118)) =
    some ([.serial 0x2002], 0x24) := by decide
/-- DV6d. -/
theorem test_ddsSetWaveform_DV6d :
    (ran (.ddsSetWaveform .sine) (withCtrl 0x2002 .triangle)).map (fun t => (t.events, t.dds.ctrl, t.dds.kind)) =
    some ([.serial 0x2000], 0x2000, .sine) := by decide

/-- DV7e: STOPPED, SLEEP1 stays 1. -/
theorem test_ddsStop_DV7e :
    (ran .ddsStop (withCtrl 0x2080 .sine)).map (fun t => (t.events, runState t.dds.ctrl)) =
    some ([.serial 0x2180], .stopped) := by decide
/-- DV11: dropped while ENV_BUS holds the lock. -/
theorem test_ddsStop_DV11 :
    (ran .ddsStop { held base with envHolds := true }).map (fun t => (t.events, t.status.ddsDone, t.lock, t.dds)) =
    some ([], false, true, base.dds) := by decide

/-- DV7. -/
theorem test_ddsSuspend_DV7 :
    (ran .ddsSuspend (withCtrl 0x2402 .triangle)).map (fun t => (t.events, runState t.dds.ctrl)) =
    some ([.serial 0x2482], .suspended) := by decide
/-- DV7c: RESET dominates. -/
theorem test_ddsSuspend_DV7c :
    (ran .ddsSuspend base).map (fun t => (t.events, runState t.dds.ctrl)) = some ([.serial 0x2180], .stopped) := by decide

/-- DV7d. -/
theorem test_ddsResume_DV7d :
    (ran .ddsResume (withCtrl 0x2180 .sine)).map (fun t => (t.events, runState t.dds.ctrl, t.lock)) =
    some ([.serial 0x2000], .running, false) := by decide
/-- DV7b. -/
theorem test_ddsResume_DV7b :
    (ran .ddsResume (withCtrl 0x2482 .triangle)).map (fun t => (t.events, t.dds.ctrl)) =
    some ([.serial 0x2402], 0x2402) := by decide

/-- LK1: STATUS reads 0x18. -/
theorem test_busTrylock_LK1 : (ran .busTrylock base).map (fun t => memRead t 0x008) = some 0x18 := by decide
/-- LK2: STATUS reads 0x10. -/
theorem test_busTrylock_LK2 :
    (ran .busTrylock { held base with status := { base.status with lockOk := true } }).map (fun t => memRead t 0x008) =
    some 0x10 := by decide
/-- LK3. -/
theorem test_busUnlock_LK3 : (ran .busUnlock (held base)).map (fun t => (t.lock, memRead t 0x008)) = some (false, 0) := by
  decide
/-- LK5: the lock of ENV_BUS is cleared, env_holds stays. -/
theorem test_busUnlock_LK5 :
    (ran .busUnlock { held base with envHolds := true }).map (fun t => (t.lock, t.envHolds)) = some (false, true) := by
  decide

/-! ## One access -/

/-- AE1: a narrow write of 0x13 to CMD executes nothing. -/
theorem test_access_AE1 :
    (after (.write (.block 0) 4 0x13)).map (fun t => (memRead t 0x008, t.events, t.dds)) = some (2, [], base.dds) := by
  decide
/-- AE2: a misaligned read returns 0. -/
theorem test_access_AE2 : (after (.read (.block 4) 8)).map (fun t => (memRead t 0x008, t.readBack)) = some (2, some 0) := by
  decide
/-- AE3: a reserved offset reads 0 without an error. -/
theorem test_access_AE3 :
    (after (.read (.block 0x0D8) 8)).map (fun t => (memRead t 0x008, t.readBack)) = some (0, some 0) := by decide
/-- AE4: a write to PWM_PERIOD_REG is ignored. -/
theorem test_access_AE4 : after (.write (.block 0x058) 8 5) = some base := by decide
/-- AE6, AE7. -/
theorem test_access_AE6_AE7 :
    (after (.write (.block 0x100) 8 0xFFFFFFFF)).map (fun t => memRead t 0x100) = some 0x0FFFFFFF ∧
    (after (.write (.block 0x110) 8 0x1234)).map (fun t => memRead t 0x110) = some 0x234 := by decide
/-- AE9. -/
theorem test_access_AE9 : step (facing (.read (.block 0x200) 8)) = .fault .outsideWindow := by rfl
/-- T15, W1, W2, W4. -/
theorem test_access_request_writes :
    (after (.write (.block 0x018) 8 0)).map (fun t => memRead t 0x018) = some 1 ∧
    (after (.write (.block 0x020) 8 2000)).map (fun t => memRead t 0x020) = some 1000 ∧
    (after (.write (.block 0x028) 8 0xFFFFFFFFFFFFFFFF)).map (fun t => memRead t 0x028) = some 60000000000 ∧
    (after (.write (.block 0x010) 8 0xFFFFFFFFFFFFFFFE)).map (fun t => memRead t 0x010) = some 0 := by decide
/-- IL10 (the word of DV10), IL5. -/
theorem test_illegal_status :
    (after (.write (.block 0) 8 0x0312)).map (fun t => memRead t 0x008) = some 0x00120001 ∧
    (after (.write (.block 0) 8 0x0100)).map (fun t => memRead t 0x008) = some 0x00000001 := by decide
/-- IL11: ILLEGAL is cleared, LAST_ILLEGAL_OP kept. -/
theorem test_status_clear_IL11 :
    (nextOf (step { raiseIllegalCommand 0x04 base with pending := [.write (.block 8) 8 1] })).map
      (fun t => memRead t 0x008) = some 0x00040000 := by decide

/-! ## Witnesses: for every statement with hypotheses, a concrete state and operands that meet them all -/

theorem witness_DecodeAcceptsExactlyLegalWords :
    decode 0x0001#64 = .ok (.pwmUpdate false) ∧ decode 0x0101#64 = .ok (.pwmUpdate true) := by decide

theorem witness_OpcodeRowsMatchDecoder :
    (∃ r ∈ opcodeRows, r.Matches 0x0101#64) ∧ decode 0x0101#64 = .ok (.pwmUpdate true) ∧
    (∃ r ∈ opcodeRows, r.Matches 0x0212#64) ∧ 0x0212#64 ≠ 0x0312#64 := by decide

theorem witness_StepRunsDecodedCommand :
    (facing (.write (.block 0) 8 0x20)).pending = .write (.block 0) 8 0x20 :: [] ∧
    (HostAddr.block 0).offset? (facing (.write (.block 0) 8 0x20)).cfg = some 0 ∧
    (HostAddr.absolute 0x400).offset? { Config.tp1 with blockBase := 0x400 } = some 0 ∧
    decode 0x20#64 = .ok .busTrylock := by decide

theorem witness_IllegalCommandChangesStatusOnly :
    (facing (.write (.block 0) 8 0x0312)).pending = .write (.block 0) 8 0x0312 :: [] ∧
    (HostAddr.block 0).offset? Config.tp1 = some 0 ∧ ¬ LegalWord 0x0312#64 := by decide

/-- A narrow access at CMD, and a misaligned one at the last byte of the window; a write and a read each. -/
theorem witness_AccessErrorChangesStatusOnly :
    (HostAddr.block 0).offset? Config.tp1 = some 0 ∧ (4 ≠ 8 ∨ 0 % 8 ≠ 0) ∧
    (HostAddr.block 0x1FF).offset? Config.tp1 = some 0x1FF ∧ (8 ≠ 8 ∨ 0x1FF % 8 ≠ 0) ∧
    (facing (.write (.block 0) 4 0x13)).pending = .write (.block 0) 4 0x13 :: [] ∧
    (facing (.read (.block 0x1FF) 8)).pending = .read (.block 0x1FF) 8 :: [] := by decide

/-- The first offset after the window, and the addresses just below and just above it; a read and a write. -/
theorem witness_OutsideWindowAccessStops :
    (HostAddr.block 0x200).offset? Config.tp1 = none ∧
    (HostAddr.absolute 0x3FF).offset? { Config.tp1 with blockBase := 0x400 } = none ∧
    (HostAddr.absolute 0x600).offset? { Config.tp1 with blockBase := 0x400 } = none ∧
    (facing (.read (.block 0x200) 8)).pending = .read (.block 0x200) 8 :: [] ∧
    (facing (.write (.block 0x200) 8 0)).pending = .write (.block 0x200) 8 0 :: [] := by decide

/-- The last register offset; and both ends of both reserved ranges. -/
theorem witness_ReadsHaveNoSideEffect :
    (facing (.read (.block 0x1F8) 8)).pending = .read (.block 0x1F8) 8 :: [] ∧
    (HostAddr.block 0x1F8).offset? Config.tp1 = some 0x1F8 ∧ 0x1F8 % 8 = 0 ∧
    ∀ off ∈ [0x0D8, 0x0F8, 0x160, 0x1F8],
      ((0x0D8 ≤ off ∧ off ≤ 0x0F8) ∨ (0x160 ≤ off ∧ off ≤ 0x1F8)) ∧ off % 8 = 0 := by decide

/-- The first and the last read-only register and a reserved offset. -/
theorem witness_ReadOnlyWritesAreIgnored :
    (facing (.write (.block 0x038) 8 5)).pending = .write (.block 0x038) 8 5 :: [] ∧
    ∀ off ∈ [0x038, 0x158, 0x1F8], (HostAddr.block off).offset? Config.tp1 = some off ∧ off % 8 = 0 ∧
      off ∉ [0x000, 0x008, 0x010, 0x018, 0x020, 0x028, 0x030, 0x100, 0x110] := by decide

theorem witness_StatusWriteOneClears :
    (facing (.write (.block 8) 8 3)).pending = .write (.block 8) 8 3 :: [] ∧
    (HostAddr.block 8).offset? Config.tp1 = some 0x008 := by decide

theorem witness_PwmCtrlHoldsLinkedAndRunning :
    (facing (.write (.block 0x010) 8 0)).pending = .write (.block 0x010) 8 0 :: [] ∧
    (HostAddr.block 0x010).offset? Config.tp1 = some 0x010 := by decide

theorem witness_RequestWritesAreClamped :
    ∀ off ∈ [0x018, 0x020, 0x028, 0x030],
      (facing (.write (.block off) 8 2000)).pending = .write (.block off) 8 2000 :: [] ∧
      (HostAddr.block off).offset? Config.tp1 = some off := by decide

theorem witness_DdsWordWritesAreMasked :
    ∀ off ∈ [0x100, 0x110],
      (facing (.write (.block off) 8 0xFFFFFFFF)).pending = .write (.block off) 8 0xFFFFFFFF :: [] ∧
      (HostAddr.block off).offset? Config.tp1 = some off := by decide

theorem witness_LimitRegistersReadParameters :
    (withCtrl 0x2102 .dc).dds.kind = .dc ∧ (withCtrl 0x2102 .triangle).dds.kind = .triangle ∧
    base.dds.kind = .sine := by decide

/-- Each clause: a free lock, a held one, a hold of ENV_BUS, none, and nothing pending. -/
theorem witness_EnvironmentStepsMoveTheLock :
    ((facing .envAcquire).pending = .envAcquire :: [] ∧ (facing .envAcquire).lock = false) ∧
    ((held (facing .envAcquire)).pending = .envAcquire :: [] ∧ (held (facing .envAcquire)).lock = true) ∧
    ({ facing .envRelease with envHolds := true }.pending = .envRelease :: [] ∧
      { facing .envRelease with envHolds := true }.envHolds = true) ∧
    ((facing .envRelease).pending = .envRelease :: [] ∧ (facing .envRelease).envHolds = false) ∧
    base.pending = [] := by decide

/-- A NOP while ENV_BUS holds the lock. -/
theorem witness_EnvironmentHoldEndsOnlyByHostUnlock : ∃ s t : State,
    s.envHolds = true ∧ (s.envHolds = true → s.lock = true) ∧ step s = .next t ∧ ¬ Executes s .busUnlock ∧
    t.envHolds = true := by
  refine ⟨{ held (facing (.write (.block 0) 8 0)) with envHolds := true }, _, rfl, fun _ => rfl, rfl, ?_, rfl⟩
  rintro ⟨_, _, _, hp, hc, hd⟩
  cases hp
  obtain ⟨_, _, rfl⟩ := hc
  exact absurd hd (by decide)

theorem witness_ResetStepSetsResetValues : (held (facing .reset)).pending = .reset :: [] := by decide

theorem witness_LockCommandsTakeAndGiveTheLock : base.lock = false ∧ (held base).lock = true := by decide

theorem witness_RunAndStopGateTheCounter :
    base.pwm.running = false ∧ { base.pwm with running := true }.running = true := by decide

/-- A state for each branch and for none; every later field is edited too where an earlier one is. -/
theorem witness_PwmUpdateTakesFirstEditedField :
    (let p := (withPwm true ⟨1, 1, 1, 1⟩ .zero .zero).pwm; p.req.freq ≠ p.prev.freq) ∧
    (let p := (withPwm true ⟨0, 1, 1, 1⟩ .zero .zero).pwm; p.req.freq = p.prev.freq ∧ p.req.duty ≠ p.prev.duty) ∧
    (let p := (withPwm true ⟨0, 0, 1, 1⟩ .zero .zero).pwm;
      p.req.freq = p.prev.freq ∧ p.req.duty = p.prev.duty ∧ p.req.th ≠ p.prev.th) ∧
    (let p := (withPwm true ⟨0, 0, 0, 1⟩ .zero .zero).pwm;
      p.req.freq = p.prev.freq ∧ p.req.duty = p.prev.duty ∧ p.req.th = p.prev.th ∧ p.req.tl ≠ p.prev.tl) ∧
    (let p := base.pwm;
      p.req.freq = p.prev.freq ∧ p.req.duty = p.prev.duty ∧ p.req.th = p.prev.th ∧ p.req.tl = p.prev.tl) := by decide

/-- A forced pass on frequency 0; the collapse of T4, nudged down to 79. -/
theorem witness_FreqBranchDerivesTheRegisters :
    (∃ f pc p : Nat, f = base.pwm.req.freq.toNat ∧
      pc = (if f = 0 then regMax else min (max (rdiv (10 * base.cfg.clk.toNat) f) 1) regMax) ∧
      p = (if f ≠ base.pwm.prev.freq.toNat ∧ pc = base.pwm.regs.period.toNat then
        (if f > base.pwm.prev.freq.toNat then max 1 (pc - 1) else min regMax (pc + 1)) else pc) ∧ p = 4294967295) ∧
    (∃ s : State, s.pwm.req.freq ≠ s.pwm.prev.freq ∧ ∃ f pc p : Nat, f = s.pwm.req.freq.toNat ∧
      pc = (if f = 0 then regMax else min (max (rdiv (10 * s.cfg.clk.toNat) f) 1) regMax) ∧
      p = (if f ≠ s.pwm.prev.freq.toNat ∧ pc = s.pwm.regs.period.toNat then
        (if f > s.pwm.prev.freq.toNat then max 1 (pc - 1) else min regMax (pc + 1)) else pc) ∧ p = 79) :=
  ⟨⟨_, _, _, rfl, rfl, rfl, by decide⟩,
   ⟨withPwm true ⟨10000001, 500, 500, 500⟩ ⟨10000000, 500, 500, 500⟩ ⟨80, 40, 40⟩, by decide,
    _, _, _, rfl, rfl, rfl, by decide⟩⟩

/-- T1a (a frequency branch) and T1b (a duty branch). -/
theorem witness_DutyBranchKeepsThePeriod :
    (∃ s t : State, exec (.pwmUpdate false) s = .next t ∧ t.status.lastBranch = .freq) ∧
    (∃ s t : State, s.pwm.req.freq = s.pwm.prev.freq ∧ s.pwm.req.duty ≠ s.pwm.prev.duty ∧
      exec (.pwmUpdate false) s = .next t ∧ t.status.lastBranch = .duty ∧ s.pwm.regs.period = 800000) :=
  ⟨⟨withPwm true ⟨1000, 0, 0, 0⟩ .zero .zero, _, rfl, by decide⟩,
   ⟨withPwm true ⟨1000, 500, 0, 10000000⟩ ⟨1000, 0, 0, 10000000⟩ ⟨800000, 0, 800000⟩, _, by decide, by decide, rfl,
    by decide, by decide⟩⟩

/-- T11, in linked and in unlinked mode: a collapse that is nudged up. -/
theorem witness_HighBranchEditsTheHighCount : ∀ linked : Bool, ∃ (s : State) (c0 c h : Nat),
    s.pwm.linked = linked ∧ s.pwm.req.freq = s.pwm.prev.freq ∧ s.pwm.req.duty = s.pwm.prev.duty ∧
    s.pwm.req.th ≠ s.pwm.prev.th ∧
    c0 = min (rdiv (s.pwm.req.th.toNat * s.cfg.clk.toNat) 1000000000) regMax ∧
    c = (if c0 = s.pwm.regs.high.toNat then
      (if s.pwm.req.th.toNat > s.pwm.prev.th.toNat then min regMax (c0 + 1) else c0 - 1) else c0) ∧
    h = min c (regMax - s.pwm.regs.low.toNat) ∧ c = 400001 :=
  fun linked => ⟨withPwm linked ⟨1000, 500, 5000006, 5000000⟩ ⟨1000, 500, 5000000, 5000000⟩ ⟨800000, 400000, 400000⟩,
    _, _, _, rfl, rfl, rfl, (by cases linked <;> decide), rfl, rfl, rfl, (by cases linked <;> decide)⟩

/-- T11b, in linked and in unlinked mode: a collapse that is nudged down. -/
theorem witness_LowBranchEditsTheLowCount : ∀ linked : Bool, ∃ (s : State) (c0 c l : Nat),
    s.pwm.linked = linked ∧ s.pwm.req.freq = s.pwm.prev.freq ∧ s.pwm.req.duty = s.pwm.prev.duty ∧
    s.pwm.req.th = s.pwm.prev.th ∧ s.pwm.req.tl ≠ s.pwm.prev.tl ∧
    c0 = min (rdiv (s.pwm.req.tl.toNat * s.cfg.clk.toNat) 1000000000) regMax ∧
    c = (if c0 = s.pwm.regs.low.toNat then
      (if s.pwm.req.tl.toNat > s.pwm.prev.tl.toNat then min regMax (c0 + 1) else c0 - 1) else c0) ∧
    l = min c (regMax - s.pwm.regs.high.toNat) ∧ c = 399999 :=
  fun linked => ⟨withPwm linked ⟨1000, 500, 5000000, 4999994⟩ ⟨1000, 500, 5000000, 5000000⟩ ⟨800000, 400000, 400000⟩,
    _, _, _, rfl, rfl, rfl, rfl, (by cases linked <;> decide), rfl, rfl, rfl, (by cases linked <;> decide)⟩

/-- T18 (a pass that leaves the period 0) and T1a (one that does not), in both snapshot modes. -/
theorem witness_PassStoresDerivedValues : ∀ mode : SnapshotMode,
    (∃ s t : State, s.cfg.snapshotMode = mode ∧ exec (.pwmUpdate false) s = .next t ∧ t.status.lastBranch ≠ .none ∧
      t.pwm.regs.period.toNat = 0) ∧
    (∃ s t : State, s.cfg.snapshotMode = mode ∧ exec (.pwmUpdate false) s = .next t ∧ t.status.lastBranch ≠ .none ∧
      t.pwm.regs.period.toNat ≠ 0) :=
  fun mode =>
    ⟨⟨{ withPwm true ⟨0, 500, 0, 0⟩ .zero .zero with cfg := { Config.tp1 with snapshotMode := mode } }, _, rfl, rfl,
      (by cases mode <;> decide), (by cases mode <;> decide)⟩,
     ⟨{ withPwm true ⟨1000, 0, 0, 0⟩ .zero .zero with cfg := { Config.tp1 with snapshotMode := mode } }, _, rfl, rfl,
      (by cases mode <;> decide), (by cases mode <;> decide)⟩⟩

/-- A period of 0, of 1 and of REG_MAX. -/
theorem witness_PassSetsResolutionBits : ∀ n ∈ [0, 1, 4294967295], ∃ (s t : State) (force : Bool),
    exec (.pwmUpdate force) s = .next t ∧ t.status.lastBranch ≠ .none ∧ t.pwm.regs.period.toNat = n := by
  intro n hn
  simp only [List.mem_cons, List.not_mem_nil, or_false] at hn
  rcases hn with rfl | rfl | rfl
  · exact ⟨withPwm true ⟨0, 500, 0, 0⟩ .zero .zero, _, false, rfl, by decide, by decide⟩
  · exact ⟨withPwm true ⟨800000000, 0, 0, 0⟩ .zero .zero, _, false, rfl, by decide, by decide⟩
  · exact ⟨base, _, true, rfl, by decide, by decide⟩

/-- T1b (two registers are sent) and T18 (none is). -/
theorem witness_PassCommitsChangedRegisters :
    (∃ s t : State, exec (.pwmUpdate false) s = .next t ∧ t.status.lastBranch ≠ .none ∧
      t.pwm.regs.period = s.pwm.committed.period ∧ t.pwm.regs.high ≠ s.pwm.committed.high ∧
      t.pwm.regs.low ≠ s.pwm.committed.low) ∧
    (∃ s t : State, exec (.pwmUpdate false) s = .next t ∧ t.status.lastBranch ≠ .none ∧
      t.pwm.regs = s.pwm.committed) :=
  ⟨⟨withPwm true ⟨1000, 500, 0, 10000000⟩ ⟨1000, 0, 0, 10000000⟩ ⟨800000, 0, 800000⟩, _, rfl, by decide, by decide,
    by decide, by decide⟩,
   ⟨withPwm true ⟨0, 500, 0, 0⟩ .zero .zero, _, rfl, by decide, by decide⟩⟩

theorem witness_PwmCommandsFrame : ∀ i ∈ [Instr.pwmUpdate false, .pwmUpdate true, .pwmRun, .pwmStop],
    (i = .pwmUpdate false ∨ i = .pwmUpdate true ∨ i = .pwmRun ∨ i = .pwmStop) ∧ (ran i base).isSome = true := by decide

/-- A pass through each branch, the last two unlinked and linked. -/
theorem witness_PassLeavesCountsThatAddUp :
    [(true, Requests.mk 1 0 0 0, Branch.freq), (true, ⟨0, 1, 0, 0⟩, .duty), (true, ⟨0, 0, 100, 0⟩, .high),
     (false, ⟨0, 0, 100, 0⟩, .high), (true, ⟨0, 0, 0, 100⟩, .low), (false, ⟨0, 0, 0, 100⟩, .low)].map
      (fun (linked, req, _) =>
        (ran (.pwmUpdate false) (withPwm linked req .zero ⟨80, 40, 40⟩)).map fun t => t.status.lastBranch) =
    [some .freq, some .duty, some .high, some .high, some .low, some .low] := by decide

/-- The collapse of T4; and a period of exactly REG_MAX. -/
theorem witness_FreqBranchPeriodIsNearTheRequest :
    (∃ (s : State) (f p0 : Nat), s.pwm.req.freq ≠ s.pwm.prev.freq ∧ f = s.pwm.req.freq.toNat ∧
      p0 = rdiv (10 * s.cfg.clk.toNat) f ∧ 1 ≤ f ∧ 1 ≤ p0 ∧ p0 ≤ regMax ∧ p0 = s.pwm.regs.period.toNat) ∧
    (∃ (s : State) (f p0 : Nat), s.pwm.req.freq ≠ s.pwm.prev.freq ∧ f = s.pwm.req.freq.toNat ∧
      p0 = rdiv (10 * s.cfg.clk.toNat) f ∧ 1 ≤ f ∧ 1 ≤ p0 ∧ p0 = regMax ∧ p0 ≠ s.pwm.regs.period.toNat) :=
  ⟨⟨withPwm true ⟨10000001, 500, 500, 500⟩ ⟨10000000, 500, 500, 500⟩ ⟨80, 40, 40⟩, _, _, by decide, rfl, rfl,
    by decide, by decide, by decide, by decide⟩,
   ⟨{ withPwm true ⟨10, 0, 0, 0⟩ .zero .zero with cfg := { Config.tp1 with clk := 4294967295 } }, _, _, by decide, rfl,
    rfl, by decide, by decide, by decide, by decide⟩⟩

/-- A frequency branch and a duty branch at the greatest duty. -/
theorem witness_DutyShareIsNearTheRequest :
    [Requests.mk 1000 1000 0 0, ⟨0, 1000, 0, 0⟩].map (fun req =>
      (ran (.pwmUpdate false) (withPwm true req .zero ⟨80, 40, 40⟩)).map fun t => t.status.lastBranch) =
    [some .freq, some .duty] ∧ (1000#64).toNat ≤ 1000 := by decide

theorem witness_SecondPassFindsNoEdit : base.cfg.snapshotMode = .writeback := by decide

/-- Two states with the same PWM registers and parameters, unlike in the lock, the DDS channel and STATUS. -/
theorem witness_PwmUpdateIgnoresDdsAndLock :
    base.pwm = (held (withCtrl 0x2402 .triangle)).pwm ∧ base.cfg = (held (withCtrl 0x2402 .triangle)).cfg ∧
    base.lock ≠ (held (withCtrl 0x2402 .triangle)).lock ∧ base.dds ≠ (held (withCtrl 0x2402 .triangle)).dds := by decide

theorem witness_HeldLockDropsDdsCommands : Instr.IsDds .ddsStop ∧ (held base).lock = true := ⟨trivial, rfl⟩

/-- The lock free or held, any configuration word (either FSELECT), each kind. -/
theorem witness_SetFreqLoadsTheIdleRegister : ∀ (lock : Bool) (ctrl : SerialWord) (k : Kind), ∃ (s : State)
    (l : FreqLimits) (v : FreqWord), s.lock = lock ∧ s.dds.ctrl = ctrl ∧ s.dds.kind = k ∧
    (s.dds.kind = .dc → l = s.cfg.ddsDc) ∧ (s.dds.kind = .triangle → l = s.cfg.ddsTriangle) ∧
    (s.dds.kind = .sine → l = s.cfg.ddsSine) ∧ v.toNat = min (max s.dds.freq.toNat l.lo.toNat) l.hi.toNat :=
  fun lock ctrl k => ⟨{ withCtrl ctrl k with lock := lock }, ⟨0, 0xFFFFFFF⟩, 0, rfl, rfl, rfl, fun _ => rfl,
    fun _ => rfl, fun _ => rfl, rfl⟩

theorem witness_SetPhaseLoadsTheIdleRegister :
    (withCtrl 0x2000 .sine).lock = false ∧ (withCtrl 0x2000 .sine).dds.ctrl.getLsbD 10 = false ∧
    (withCtrl 0x2400 .sine).dds.ctrl.getLsbD 10 = true := by decide

theorem witness_SetWaveformSetsModeAndKind : ∀ k : Kind, ∃ (s : State) (ctrl : SerialWord), s.lock = false ∧
    ctrl = (if k = .sine then s.dds.ctrl &&& 0xFFFD else s.dds.ctrl ||| 0x0002) :=
  fun _ => ⟨base, _, rfl, rfl⟩

theorem witness_RunControlSetsResetAndSleep :
    base.lock = false ∧ (0x2100#16 = base.dds.ctrl ||| 0x0100) ∧ (0x2180#16 = base.dds.ctrl ||| 0x0080) ∧
    (0x2000#16 = base.dds.ctrl &&& 0xFE7F) := by decide

theorem witness_RunStateFollowsTheTable : Instr.IsDds .ddsResume ∧ base.lock = false := ⟨trivial, rfl⟩

theorem witness_PingPongWritesOnlyTheIdleRegister : base.lock = false := by decide

theorem witness_DdsCommandsFrame : Instr.IsDds .ddsSetFreq ∧ ∃ t, exec .ddsSetFreq base = .next t :=
  ⟨trivial, _, rfl⟩

theorem witness_RetryAfterDropIsExact : Instr.IsDds .ddsSetPhase ∧ (held base).lock = true := ⟨trivial, rfl⟩

/-- A state that is not the reset state meets the invariant and takes a step that changes it. -/
theorem witness_StepKeepsTheInvariant : ∃ s t : State, s.Inv ∧ step s = .next t ∧ t.dds.ctrl ≠ s.dds.ctrl := by
  refine ⟨{ withPwm true ⟨1000, 0, 0, 10000000⟩ ⟨1000, 0, 0, 10000000⟩ ⟨800000, 0, 800000⟩ with
    pwm := { (withPwm true ⟨1000, 0, 0, 10000000⟩ ⟨1000, 0, 0, 10000000⟩ ⟨800000, 0, 800000⟩).pwm with resBits := 20 }
    events := [.commit [(.period, 800000), (.low, 800000)]]
    pending := [cmd .ddsResume] }, _, ?_, rfl, by decide⟩
  exact ⟨by decide, by decide, by decide, by decide, by decide, by decide, by decide, by decide,
    by simp only [EventsWellFormed, List.mem_singleton, forall_eq, Event.WellFormed]; decide⟩

/-- A counter with two registers told and running. -/
theorem witness_CounterHistoryGivesCommittedCopies : ∃ s t : State, CounterReplayAgrees s ∧ step s = .next t ∧
    s.pwm.running = true ∧ s.events ≠ [] :=
  ⟨{ withPwm true ⟨1000, 0, 0, 10000000⟩ ⟨1000, 0, 0, 10000000⟩ ⟨800000, 0, 800000⟩ with
    pwm := { (withPwm true ⟨1000, 0, 0, 10000000⟩ ⟨1000, 0, 0, 10000000⟩ ⟨800000, 0, 800000⟩).pwm with running := true }
    events := [.commit [(.period, 800000), (.low, 800000)], .enable true]
    pending := [cmd .pwmStop] }, _, by decide, rfl, by decide, by decide⟩

/-- After DV3: the words of one frequency. -/
theorem witness_SerialHistoryGivesTheShadows : ∃ s t : State, SerialReplayAgrees s ∧ step s = .next t ∧
    s.events ≠ [] :=
  ⟨{ withCtrl 0x2800 .sine with
    dds := { (withCtrl 0x2800 .sine).dds with freq := 0x0ABCDEF, freqPrev := 0x0ABCDEF, freq1 := 0x0ABCDEF }
    events := [.serial 0x8DEF, .serial 0x82AF, .serial 0x2800]
    pending := [cmd .ddsSetFreq] }, _, ⟨by decide, by decide⟩, rfl, by decide⟩

/-- No assertion of reset is next, and a command that emits is. -/
theorem witness_EventsComeFromTheirOwnCommands : ∃ s t : State, step s = .next t ∧ ¬ ResetsNext s ∧
    t.events ≠ s.events := by
  refine ⟨facing (cmd .ddsStop), _, rfl, ?_, by decide⟩
  rintro ⟨_, h⟩
  cases h

theorem witness_OnlyPwmUpdateChangesTheCounts : ∃ s t : State, step s = .next t ∧ ¬ ResetsNext s ∧
    ∀ force, ¬ Executes s (.pwmUpdate force) := by
  refine ⟨facing (.write (.block 0x018) 8 1000), _, rfl, ?_, ?_⟩
  · rintro ⟨_, h⟩
    cases h
  · rintro _ ⟨_, _, _, hp, hc, _⟩
    cases hp
    exact absurd hc.1 (by decide)

/-- Each of the five ways: reset, the two lock commands, the two steps of ENV_BUS. -/
theorem witness_LockChangesOnlyByItsUsers :
    ∀ s ∈ [held (facing .reset), facing (cmd .busTrylock), held (facing (cmd .busUnlock)), facing .envAcquire,
      { held (facing .envRelease) with envHolds := true }], ∃ t, step s = .next t ∧ t.lock ≠ s.lock := by
  intro s hs
  simp only [List.mem_cons, List.not_mem_nil, or_false] at hs
  rcases hs with rfl | rfl | rfl | rfl | rfl <;> exact ⟨_, rfl, by decide⟩

theorem witness_StepKeepsTheParameters : ∃ t, step (facing .reset) = .next t := ⟨_, rfl⟩

/-- A schedule with an access of each kind and every other agent. -/
theorem witness_ProgramsInTheWindowNeverStop :
    ∀ st ∈ [Stimulus.read (.block 0x1FF) 1, .write (.absolute 0x1F8) 8 7, .envAcquire, .envRelease, .reset],
      st.InWindow Config.tp1 := by
  simp only [List.forall_mem_cons]
  exact ⟨rfl, rfl, trivial, trivial, trivial, by simp⟩

end Sys2Proof.Tests
end

/-! PROOF. What no step changes of the model's surroundings: the parameters (00_scope.md R7) and, once the head of
`pending` is taken off, the rest of the schedule. Settles O58. -/

namespace Sys2Proof.Machine

/-- From s to t the parameters and what is still pending stay (00_scope.md R7, log entry 2). -/
def KeepsSurroundings (s t : State) : Prop := t.cfg = s.cfg ∧ t.pending = s.pending

theorem setRunning_keepsSurroundings (b : Bool) (s : State) : KeepsSurroundings s (setRunning b s) := by
  obtain ⟨_, h⟩ | ⟨_, h⟩ := setRunning_cases b s <;> rw [h] <;> exact ⟨rfl, rfl⟩

theorem pwmUpdate_keepsSurroundings (force : Bool) (s : State) : KeepsSurroundings s (pwmUpdate force s) := by
  obtain ⟨_, h⟩ | ⟨_, h⟩ := pwmUpdate_cases force s
  · rw [h]
    exact ⟨rfl, rfl⟩
  · rw [h, commit_spec]
    exact ⟨rfl, rfl⟩

/-- The lock bracket keeps the surroundings if its body does (42_dds.md R170, R171). -/
theorem ddsCommand_keepsSurroundings (body : State → State) (hbody : ∀ s, KeepsSurroundings s (body s)) (s : State) :
    KeepsSurroundings s (ddsCommand body s) := by
  cases hl : s.lock with
  | false =>
    rw [ddsCommand_performed hl]
    exact hbody { s with lock := true }
  | true =>
    rw [ddsCommand_dropped hl]
    exact ⟨rfl, rfl⟩

theorem envAcquire_keepsSurroundings (s : State) : KeepsSurroundings s (envAcquire s) := by
  unfold envAcquire
  split <;> exact ⟨rfl, rfl⟩

theorem envRelease_keepsSurroundings (s : State) : KeepsSurroundings s (envRelease s) := by
  unfold envRelease
  split <;> exact ⟨rfl, rfl⟩

/-- No command writes a parameter or reaches into the schedule. -/
theorem exec_keepsSurroundings {i : Instr} {s t : State} (h : exec i s = .next t) : KeepsSurroundings s t := by
  cases i with
  | nop => cases h; exact ⟨rfl, rfl⟩
  | pwmUpdate force => cases h; exact pwmUpdate_keepsSurroundings force s
  | pwmRun => cases h; exact setRunning_keepsSurroundings true s
  | pwmStop => cases h; exact setRunning_keepsSurroundings false s
  | ddsSetFreq => cases h; exact ddsCommand_keepsSurroundings setFreqBody (fun _ => ⟨rfl, rfl⟩) s
  | ddsSetPhase => cases h; exact ddsCommand_keepsSurroundings setPhaseBody (fun _ => ⟨rfl, rfl⟩) s
  | ddsSetWaveform kind => cases h; exact ddsCommand_keepsSurroundings (setWaveformBody kind) (fun _ => ⟨rfl, rfl⟩) s
  | ddsStop => cases h; exact ddsCommand_keepsSurroundings stopBody (fun _ => ⟨rfl, rfl⟩) s
  | ddsSuspend => cases h; exact ddsCommand_keepsSurroundings suspendBody (fun _ => ⟨rfl, rfl⟩) s
  | ddsResume => cases h; exact ddsCommand_keepsSurroundings resumeBody (fun _ => ⟨rfl, rfl⟩) s
  | busTrylock =>
    cases h
    cases hl : s.lock with
    | false => rw [tryAcquire_free hl]; exact ⟨rfl, rfl⟩
    | true => rw [tryAcquire_held hl]; exact ⟨rfl, rfl⟩
  | busUnlock => cases h; exact ⟨rfl, rfl⟩

/-- No effect of a stimulus, an assertion of reset included, writes a parameter or reaches into the schedule. -/
theorem respond_keepsSurroundings {st : Stimulus} {s t : State} (h : respond st s = .next t) :
    KeepsSurroundings s t := by
  cases st with
  | read addr bytes => obtain ⟨_, _, ⟨_, rfl⟩ | ⟨_, rfl⟩⟩ := hostRead_cases h <;> exact ⟨rfl, rfl⟩
  | write addr bytes v =>
    obtain ⟨_, _, ⟨_, rfl⟩ | ⟨_, _, _, _, he⟩ | ⟨_, _, _, rfl⟩ | ⟨_, r, _, _, rfl⟩ | ⟨_, _, rfl⟩⟩ := hostWrite_cases h
    · exact ⟨rfl, rfl⟩
    · exact exec_keepsSurroundings he
    · exact ⟨rfl, rfl⟩
    · obtain ⟨_, _, _, hcfg, hpending, _⟩ := writeReg_frame r v s
      exact ⟨hcfg, hpending⟩
    · exact ⟨rfl, rfl⟩
  | envAcquire => cases h; exact envAcquire_keepsSurroundings s
  | envRelease => cases h; exact envRelease_keepsSurroundings s
  | reset => cases h; exact ⟨rfl, rfl⟩

/-- Settles O58: a step takes the head off `pending`, the model's own field (log entry 2), and the effect of that head
keeps the parameters and the rest; with nothing pending the step is idle (log entry 3) and there is no head to take. -/
theorem stepKeepsTheParameters : Obligations.StepKeepsTheParameters := by
  unfold Obligations.StepKeepsTheParameters
  intro s t h
  obtain ⟨hnil, rfl⟩ | ⟨st, rest, hcons, hr⟩ := step_cases h
  · simp [hnil]
  · obtain ⟨hcfg, hpending⟩ := respond_keepsSurroundings hr
    exact ⟨hcfg, by rw [hpending, hcons, List.tail_cons]⟩

end Sys2Proof.Machine

/-! PROOF. What every kind of step does to the units of the block: the six bodies of the DDS commands, the packaged
induction for what STATUS and the lock have no part in, and a step sorted by who makes it. -/

namespace Sys2Proof.Machine

/-! ## The bodies of the DDS commands -/

/-- The bodies of the six DDS commands (42_dds.md R172 to R177). -/
inductive IsDdsBody : (State → State) → Prop where
  | setFreq : IsDdsBody setFreqBody
  | setPhase : IsDdsBody setPhaseBody
  | setWaveform (k : Kind) : IsDdsBody (setWaveformBody k)
  | stop : IsDdsBody stopBody
  | suspend : IsDdsBody suspendBody
  | resume : IsDdsBody resumeBody

/-- A body leaves the PWM engine and the parameters. -/
theorem IsDdsBody.frame {body : State → State} (h : IsDdsBody body) (s : State) :
    (body s).pwm = s.pwm ∧ (body s).cfg = s.cfg := by
  cases h <;> exact ⟨rfl, rfl⟩

/-- A body adds serial words to the history and nothing else. -/
theorem IsDdsBody.events {body : State → State} (h : IsDdsBody body) (s : State) :
    ∃ ws : List SerialWord, (body s).events = s.events ++ ws.map .serial := by
  cases h with
  | setFreq => exact ⟨[_, _, _], by rw [setFreqBody_eq]; rfl⟩
  | setPhase => exact ⟨[_, _], by rw [setPhaseBody_eq]; rfl⟩
  | setWaveform k => exact ⟨[_], rfl⟩
  | stop => exact ⟨[_], rfl⟩
  | suspend => exact ⟨[_], rfl⟩
  | resume => exact ⟨[_], rfl⟩

/-- The lock bracket gives back what it takes (42_dds.md R170). -/
theorem ddsCommand_lock (body : State → State) (s : State) : (ddsCommand body s).lock = s.lock := by
  cases hl : s.lock with
  | false => rw [ddsCommand_performed hl]; rfl
  | true => rw [ddsCommand_dropped hl]; exact hl

/-- A DDS command leaves the PWM engine. -/
theorem ddsCommand_pwm {body : State → State} (h : IsDdsBody body) (s : State) : (ddsCommand body s).pwm = s.pwm := by
  cases hl : s.lock with
  | false => rw [ddsCommand_performed hl]; exact (h.frame _).1
  | true => rw [ddsCommand_dropped hl]

/-! ## What STATUS and the lock have no part in -/

/-- From s to t the parameters, the PWM engine, the DDS channel and the history stay; STATUS, the lock, env_holds, the
schedule and the latest answer may change. -/
structure SameUnits (s t : State) : Prop where
  cfg    : t.cfg = s.cfg
  pwm    : t.pwm = s.pwm
  dds    : t.dds = s.dds
  events : t.events = s.events

/-- A predicate on the parameters, the PWM engine, the DDS channel and the history alone, which everything that can
touch those keeps: a branch of PWM_UPDATE, a change of RUNNING, the body of a DDS command, a write to a register, and
reset. -/
structure KeptByUnits (P : State → Prop) : Prop where
  same    : ∀ s t, SameUnits s t → P s → P t
  branch  : ∀ s b, b ≠ .none → P s → P (commit { s with pwm := reconcile b s.cfg s.pwm })
  running : ∀ s b, P s → P { s with pwm := { s.pwm with running := b }, events := s.events ++ [.enable b] }
  body    : ∀ s body, IsDdsBody body → P s → P (body s)
  write   : ∀ s r v, P s → P (writeReg r v s)
  reset   : ∀ s, P s → P (resetBlock s)

namespace KeptByUnits

variable {P : State → Prop} {s t : State}

theorem pwmUpdate (hP : KeptByUnits P) (force : Bool) (hs : P s) : P (pwmUpdate force s) := by
  obtain ⟨_, h⟩ | ⟨hb, h⟩ := pwmUpdate_cases force s <;> rw [h]
  · exact hP.same s _ ⟨rfl, rfl, rfl, rfl⟩ hs
  · refine hP.same _ _ ?_ (hP.branch s _ hb hs)
    rw [commit_spec, commit_spec]
    exact ⟨rfl, rfl, rfl, rfl⟩

theorem setRunning (hP : KeptByUnits P) (b : Bool) (hs : P s) : P (setRunning b s) := by
  obtain ⟨_, h⟩ | ⟨_, h⟩ := setRunning_cases b s <;> rw [h]
  · exact hs
  · exact hP.running s b hs

theorem ddsCommand (hP : KeptByUnits P) {body : State → State} (hbody : IsDdsBody body) (hs : P s) :
    P (ddsCommand body s) := by
  cases hl : s.lock with
  | false =>
    rw [ddsCommand_performed hl]
    have hlocked : P { s with lock := true } := hP.same s _ ⟨rfl, rfl, rfl, rfl⟩ hs
    exact hP.same (body { s with lock := true }) _ ⟨rfl, rfl, rfl, rfl⟩ (hP.body _ body hbody hlocked)
  | true =>
    rw [ddsCommand_dropped hl]
    exact hP.same s _ ⟨rfl, rfl, rfl, rfl⟩ hs

theorem exec (hP : KeptByUnits P) {i : Instr} (hs : P s) (h : exec i s = .next t) : P t := by
  cases i with
  | nop => cases h; exact hs
  | pwmUpdate force => cases h; exact hP.pwmUpdate force hs
  | pwmRun => cases h; exact hP.setRunning true hs
  | pwmStop => cases h; exact hP.setRunning false hs
  | ddsSetFreq => cases h; exact hP.ddsCommand .setFreq hs
  | ddsSetPhase => cases h; exact hP.ddsCommand .setPhase hs
  | ddsSetWaveform k => cases h; exact hP.ddsCommand (.setWaveform k) hs
  | ddsStop => cases h; exact hP.ddsCommand .stop hs
  | ddsSuspend => cases h; exact hP.ddsCommand .suspend hs
  | ddsResume => cases h; exact hP.ddsCommand .resume hs
  | busTrylock =>
    cases h
    cases hl : s.lock with
    | false => rw [tryAcquire_free hl]; exact hP.same s _ ⟨rfl, rfl, rfl, rfl⟩ hs
    | true => rw [tryAcquire_held hl]; exact hP.same s _ ⟨rfl, rfl, rfl, rfl⟩ hs
  | busUnlock => cases h; exact hP.same s _ ⟨rfl, rfl, rfl, rfl⟩ hs

/-- The packaged induction over one step for such a predicate: every step keeps it. -/
theorem step (hP : KeptByUnits P) (hs : P s) (h : step s = .next t) : P t := by
  refine step_keeps (P := P) ?pend ?command ?illegal ?access ?answer ?write ?acquire ?giveBack hP.reset hs h
  case pend => exact fun s _ => hP.same s _ ⟨rfl, rfl, rfl, rfl⟩
  case command => exact fun _ _ _ => hP.exec
  case illegal => exact fun s _ => hP.same s _ ⟨rfl, rfl, rfl, rfl⟩
  case access => exact fun s => hP.same s _ ⟨rfl, rfl, rfl, rfl⟩
  case answer => exact fun s _ => hP.same s _ ⟨rfl, rfl, rfl, rfl⟩
  case write => exact fun s r v _ => hP.write s r v
  case acquire =>
    intro s
    refine hP.same s _ ?_
    unfold envAcquire
    split <;> exact ⟨rfl, rfl, rfl, rfl⟩
  case giveBack =>
    intro s
    refine hP.same s _ ?_
    unfold envRelease
    split <;> exact ⟨rfl, rfl, rfl, rfl⟩

end KeptByUnits

end Sys2Proof.Machine

/-! PROOF. The history replayed to the counter hardware (10_state.md R31, 20_memory.md R74, R75). Settles O53. -/

namespace Sys2Proof.Machine

/-- The pair sent for a register that differs, or nothing for one that does not, brings that register to its new
count. -/
theorem foldl_takePair_changedPair (reg : CounterReg) (new old : Count) (c : Counts)
    (h : takePair c (reg, old) = c) : (changedPair reg new old).foldl takePair c = takePair c (reg, new) := by
  unfold changedPair
  split
  · rfl
  · rename_i heq
    rw [Decidable.not_not.mp heq, h]
    rfl

/-- A counter that holds the committed copies and takes the pairs of `commit()` holds the registers
(41_pwm.md R142). -/
theorem foldl_takePair_commitList (new old : Counts) : (commitList new old).foldl takePair old = new := by
  unfold commitList
  rw [List.foldl_append, List.foldl_append, foldl_takePair_changedPair .period _ _ _ rfl,
    foldl_takePair_changedPair .high _ _ _ rfl, foldl_takePair_changedPair .low _ _ _ rfl]
  rfl

/-- The events of one step, taken after the history before it. -/
theorem replayCounter_append (es fs : List Event) :
    replayCounter (es ++ fs) = fs.foldl CounterView.take (replayCounter es) := List.foldl_append

/-- The counter hardware takes no serial word (20_memory.md R73). -/
theorem foldl_take_serial (v : CounterView) (ws : List SerialWord) :
    (ws.map Event.serial).foldl CounterView.take v = v := by
  induction ws with
  | nil => rfl
  | cons w ws ih => exact ih

/-- `commit()` tells the counter what the committed copies become. -/
theorem commit_counterReplay {s : State} (h : CounterReplayAgrees s) : CounterReplayAgrees (commit s) := by
  have hcounts := foldl_takePair_commitList s.pwm.regs s.pwm.committed
  rw [commit_spec]
  unfold CounterReplayAgrees at h ⊢
  rw [replayCounter_append, h]
  split
  · rename_i hnil
    rw [hnil] at hcounts
    exact congrArg (CounterView.mk · _) hcounts
  · exact congrArg (CounterView.mk · _) hcounts

/-- What a step can do keeps the replay in agreement with the committed copies and RUNNING. -/
theorem counterReplayAgrees_kept : KeptByUnits CounterReplayAgrees where
  same s t hst h := by
    unfold CounterReplayAgrees
    rw [hst.events, hst.pwm]
    exact h
  branch s b _ h := commit_counterReplay (s := { s with pwm := reconcile b s.cfg s.pwm }) h
  running s b h := by
    unfold CounterReplayAgrees at h ⊢
    rw [replayCounter_append, h]
    rfl
  body s body hbody h := by
    obtain ⟨ws, hevents⟩ := hbody.events s
    unfold CounterReplayAgrees
    rw [hevents, replayCounter_append, foldl_take_serial, (hbody.frame s).1]
    exact h
  write s r v h := by
    obtain ⟨_, hevents, _⟩ := writeReg_frame r v s
    obtain ⟨_, _, hcommitted, hrunning, _⟩ := writeReg_units r v s
    unfold CounterReplayAgrees
    rw [hevents, hcommitted, hrunning]
    exact h
  reset _ _ := rfl

/-- Settles O53: only a commit and an enable speak to the counter; a commit sends exactly the registers whose copies
differ, and the copies become the registers with it. The replay starts where R241 puts the counter (log entry 14). -/
theorem counterHistoryGivesCommittedCopies : Obligations.CounterHistoryGivesCommittedCopies :=
  ⟨rfl, fun _ _ => counterReplayAgrees_kept.step⟩

end Sys2Proof.Machine

/-! PROOF. The serial words of the history, read back by their leading bits (30_encoding.md R96 to R98). Settles O54. -/

namespace Sys2Proof.Machine

/-- What the serial port has said when it has said exactly the registers of the DDS channel. -/
def Dds.serialView (d : Dds) : SerialView := ⟨d.ctrl, d.freq0, d.freq1, d.phase0, d.phase1, none⟩

/-- A word with the fixed bits of R39 leads with 00, as a configuration word does (30_encoding.md R96). -/
theorem takeWord_ctrl {c : SerialWord} (h : c &&& 0xF27D#16 = 0x2000#16) (d : Dds) :
    d.serialView.takeWord c = { d with ctrl := c }.serialView := by
  have h15 : c.getLsbD 15 = false := by simpa using congrArg (BitVec.getLsbD · 15) h
  have h14 : c.getLsbD 14 = false := by simpa using congrArg (BitVec.getLsbD · 14) h
  simp only [SerialView.takeWord, h15, h14]
  rfl

/-- A word that leads as FREQ0 or FREQ1 does is read as a half of that register (30_encoding.md R97). -/
theorem takeWord_freqPrefix (v : SerialView) (i : Bool) (x : BitVec 14) :
    v.takeWord (freqPrefix i ||| x.setWidth 16) = v.takeFreq i (freqPrefix i ||| x.setWidth 16) := by
  cases i <;> simp [SerialView.takeWord, freqPrefix]

/-- Under the leading bits of FREQ0 or FREQ1 stand the 14 bits sent. -/
theorem extractLsb'_freqPrefix_or (i : Bool) (x : BitVec 14) :
    (freqPrefix i ||| x.setWidth 16).extractLsb' 0 14 = x := by
  have hlead : (freqPrefix i).extractLsb' 0 14 = 0#14 := by cases i <;> rfl
  rw [BitVec.extractLsb'_or, hlead, BitVec.extractLsb'_setWidth_of_le (by decide), BitVec.extractLsb'_eq_self,
    BitVec.zero_or]

/-- Under the leading bits of PHASE0 or PHASE1 stand the 12 bits sent. -/
theorem extractLsb'_phaseWord (i : Bool) (p : PhaseWord) : (phaseWord i p).extractLsb' 0 12 = p := by
  have hlead : (phasePrefix i).extractLsb' 0 12 = 0#12 := by cases i <;> rfl
  rw [phaseWord, BitVec.extractLsb'_or, hlead, BitVec.extractLsb'_setWidth_of_le (by decide),
    BitVec.extractLsb'_eq_self, BitVec.zero_or]

/-- The two halves make the frequency again. -/
theorem freq_halves (v : FreqWord) : v.extractLsb' 14 14 ++ v.extractLsb' 0 14 = v :=
  (BitVec.extractLsb'_append_extractLsb'_eq_extractLsb' (start₁ := 0) (len₁ := 14) rfl).trans BitVec.extractLsb'_eq_self

/-- The two data words of a frequency are read as one write of its shadow (30_encoding.md R97). -/
theorem takeWord_freqWords (d : Dds) (i : Bool) (v : FreqWord) :
    (d.serialView.takeWord (freqWordLo i v)).takeWord (freqWordHi i v) = (d.setFreqShadow i v).serialView := by
  unfold freqWordLo freqWordHi
  rw [takeWord_freqPrefix, takeWord_freqPrefix]
  simp only [SerialView.takeFreq, Dds.serialView, extractLsb'_freqPrefix_or, freq_halves]
  cases i <;> rfl

/-- The data word of a phase is read as a write of its shadow (30_encoding.md R98). -/
theorem takeWord_phaseWord (d : Dds) (i : Bool) (p : PhaseWord) :
    d.serialView.takeWord (phaseWord i p) = (d.setPhaseShadow i p).serialView := by
  have h15 : (phaseWord i p).getLsbD 15 = true := by cases i <;> simp [phaseWord, phasePrefix]
  have h14 : (phaseWord i p).getLsbD 14 = true := by cases i <;> simp [phaseWord, phasePrefix]
  have h13 : (phaseWord i p).getLsbD 13 = i := by cases i <;> simp [phaseWord, phasePrefix]
  simp only [SerialView.takeWord, h15, h14, h13, extractLsb'_phaseWord]
  cases i <;> rfl

/-- The replay of the serial words gives the DDS registers of s. -/
def SerialSaid (s : State) : Prop := replaySerial s.events = s.dds.serialView

/-- The events of one step, read after the history before it. -/
theorem replaySerial_append (es fs : List Event) :
    replaySerial (es ++ fs) = fs.foldl SerialView.take (replaySerial es) := List.foldl_append

/-- A configuration word that is stored as it is sent (20_memory.md R72). -/
theorem SerialSaid.sendCtrl {s : State} (h : SerialSaid s) {c : SerialWord} (hc : c &&& 0xF27D#16 = 0x2000#16) :
    SerialReplayAgrees (sendCtrl c s) := by
  refine ⟨hc, ?_⟩
  rw [sendCtrl_events, replaySerial_append, h]
  exact takeWord_ctrl hc s.dds

/-- A frequency sent, low half first, whose shadow is written with it. -/
theorem SerialSaid.sendFreq {s : State} (h : SerialSaid s) (i : Bool) (v : FreqWord) :
    SerialSaid { serialWrite (freqWordHi i v) (serialWrite (freqWordLo i v) s) with
      dds := s.dds.setFreqShadow i v } := by
  unfold SerialSaid
  rw [← takeWord_freqWords, ← h]
  simp only [serialWrite_events, replaySerial_append]
  rfl

/-- A phase sent, whose shadow is written with it. -/
theorem SerialSaid.sendPhase {s : State} (h : SerialSaid s) (i : Bool) (p : PhaseWord) :
    SerialSaid { serialWrite (phaseWord i p) s with dds := s.dds.setPhaseShadow i p } := by
  unfold SerialSaid
  rw [← takeWord_phaseWord, ← h]
  simp only [serialWrite_events, replaySerial_append]
  rfl

/-- Each body stores what it sends (42_dds.md R172 to R177). -/
theorem IsDdsBody.serialReplay {body : State → State} (hbody : IsDdsBody body) {s : State} (h : SerialReplayAgrees s) :
    SerialReplayAgrees (body s) := by
  obtain ⟨hfixed, hsaid⟩ := h
  have keep {i : Nat} (hi : i = bitFselect ∨ i = bitPselect ∨ i = bitReset ∨ i = bitSleep1 ∨ i = bitMode) (b : Bool) :
      setBit s.dds.ctrl i b &&& 0xF27D#16 = 0x2000#16 := (setBit_fixed s.dds.ctrl hi b).trans hfixed
  cases hbody with
  | setFreq =>
    obtain ⟨hc, hr⟩ := (SerialSaid.sendFreq hsaid (!fselect s.dds.ctrl) (clampedFreq s.cfg s.dds)).sendCtrl
      (keep (i := bitFselect) (by simp) (!fselect s.dds.ctrl))
    exact ⟨hc, hr⟩
  | setPhase =>
    exact (SerialSaid.sendPhase hsaid (!pselect s.dds.ctrl) s.dds.phase).sendCtrl (keep (by simp) _)
  | setWaveform k =>
    exact SerialSaid.sendCtrl (s := { s with dds := { s.dds with kind := k } }) hsaid (keep (by simp) _)
  | stop => exact SerialSaid.sendCtrl hsaid (keep (by simp) _)
  | suspend => exact SerialSaid.sendCtrl hsaid (keep (by simp) _)
  | resume =>
    exact SerialSaid.sendCtrl hsaid ((setBit_fixed _ (by simp) _).trans (keep (i := bitReset) (by simp) false))

/-- The serial port takes no commit (20_memory.md R74). -/
theorem commit_serialReplay (s : State) : replaySerial (commit s).events = replaySerial s.events := by
  rw [commit_spec]
  simp only [replaySerial_append]
  split <;> rfl

/-- DDS_CTRL after reset has its fixed bits (10_state.md R39, 70_reset_and_hazards.md R240). -/
theorem ctrl_reset_fixed : Dds.reset.ctrl &&& 0xF27D#16 = 0x2000#16 := by decide

/-- What a step can do keeps the replay in agreement with DDS_CTRL and the shadows. -/
theorem serialReplayAgrees_kept : KeptByUnits SerialReplayAgrees where
  same s t hst h := by
    constructor
    · rw [CtrlFixedBits, hst.dds]
      exact h.ctrlBits
    · rw [hst.events, hst.dds]
      exact h.replay
  branch s b _ h := by
    constructor
    · rw [commit_spec]
      exact h.ctrlBits
    · rw [commit_serialReplay, commit_spec]
      exact h.replay
  running s b h := ⟨h.ctrlBits, by rw [replaySerial_append]; exact h.replay⟩
  body s body hbody h := hbody.serialReplay h
  write s r v h := by
    obtain ⟨_, hevents, _⟩ := writeReg_frame r v s
    obtain ⟨_, _, _, _, _, hdds⟩ := writeReg_units r v s
    constructor
    · rw [CtrlFixedBits, hdds]
      exact h.ctrlBits
    · rw [hevents, hdds]
      exact h.replay
  reset _ _ := ⟨ctrl_reset_fixed, rfl⟩

/-- Settles O54: each DDS command sends every register it writes, in the format whose leading bits name that
register; the fixed bits of DDS_CTRL make its word lead with 00, as no other word does. -/
theorem serialHistoryGivesTheShadows : Obligations.SerialHistoryGivesTheShadows :=
  ⟨⟨ctrl_reset_fixed, rfl⟩, fun _ _ => serialReplayAgrees_kept.step⟩

end Sys2Proof.Machine

/-! PROOF. The invariant of the machine, unit by unit, and that every step keeps it. Settles O52. -/

namespace Sys2Proof.Machine

/-! ## The DDS channel -/

/-- The parts of the invariant that speak of the DDS channel (10_state.md R39, 42_dds.md R174, R179.4). -/
structure Dds.Inv (d : Dds) : Prop where
  ctrl     : d.ctrl &&& 0xF27D#16 = 0x2000#16
  mode     : chipMode d.ctrl = modeOf d.kind
  liveFreq : d.freqShadow (fselect d.ctrl) = d.freqPrev

theorem dds_inv_reset : Dds.reset.Inv := ⟨ctrl_reset_fixed, by decide, by decide⟩

/-- Another configuration word and kind that agree on MODE, with the same fixed bits and the same FSELECT. -/
theorem Dds.Inv.withCtrl {d : Dds} (h : d.Inv) {c : SerialWord} {k : Kind}
    (hfixed : c &&& 0xF27D#16 = d.ctrl &&& 0xF27D#16) (hmode : chipMode c = modeOf k)
    (hsel : fselect c = fselect d.ctrl) : { d with kind := k, ctrl := c }.Inv where
  ctrl := hfixed.trans h.ctrl
  mode := hmode
  liveFreq := by
    rw [hsel]
    exact h.liveFreq

theorem Dds.Inv.setPhaseShadow {d : Dds} (h : d.Inv) (i : Bool) (p : PhaseWord) : (d.setPhaseShadow i p).Inv := by
  cases i <;> exact ⟨h.ctrl, h.mode, h.liveFreq⟩

/-- A frequency loaded into the idle register, made live and copied to DDS_FREQ_PREV (42_dds.md R172, R179.4). -/
theorem Dds.Inv.setFreqShadow {d : Dds} (h : d.Inv) (i : Bool) (v w : FreqWord) :
    { d.setFreqShadow i v with ctrl := setBit d.ctrl bitFselect i, freq := w, freqPrev := v }.Inv where
  ctrl := (setBit_fixed d.ctrl (by simp) i).trans h.ctrl
  mode := by rw [chipMode_setFselect, setFreqShadow_kind, h.mode]
  liveFreq := by
    rw [fselect_setFselect]
    exact (freqShadow_setFreqShadow d i i v).trans (if_pos rfl)

/-- Each body keeps the DDS part of the invariant: DDS_SET_FREQ makes the register it loaded live, no other moves
FSELECT; DDS_SET_WAVEFORM writes MODE and KIND together, no other writes either. -/
theorem IsDdsBody.dds_inv {body : State → State} (hbody : IsDdsBody body) {s : State} (h : s.dds.Inv) :
    (body s).dds.Inv := by
  cases hbody with
  | setFreq =>
    rw [setFreqBody_eq]
    exact h.setFreqShadow _ _ _
  | setPhase =>
    rw [setPhaseBody_eq]
    refine (h.setPhaseShadow (!pselect s.dds.ctrl) s.dds.phase).withCtrl ?_ ?_ ?_
    · rw [setPhaseShadow_ctrl]
      exact setBit_fixed _ (by simp) _
    · rw [chipMode_setPselect, setPhaseShadow_kind, h.mode]
    · rw [fselect_setPselect, setPhaseShadow_ctrl]
  | setWaveform k =>
    exact h.withCtrl (setBit_fixed _ (by simp) _) (chipMode_setChipMode _ _) (fselect_setChipMode _ _)
  | stop =>
    exact h.withCtrl (setBit_fixed _ (by simp) _) ((chipMode_setChipReset _ _).trans h.mode) (fselect_setChipReset _ _)
  | suspend =>
    exact h.withCtrl (setBit_fixed _ (by simp) _) ((chipMode_setChipSleep _ _).trans h.mode) (fselect_setChipSleep _ _)
  | resume =>
    refine h.withCtrl ((setBit_fixed _ (by simp) _).trans (setBit_fixed _ (by simp) _)) ?_ ?_
    · rw [chipMode_setChipSleep, chipMode_setChipReset, h.mode]
    · rw [fselect_setChipSleep, fselect_setChipReset]

/-! ## The PWM engine -/

/-- The parts of the invariant that speak of the PWM engine (10_state.md R34, R26, 41_pwm.md R141, R145). -/
structure Pwm.Inv (p : Pwm) : Prop where
  committed  : p.regs = p.committed
  sum        : p.regs.high.toNat + p.regs.low.toNat = p.regs.period.toNat
  resolution : p.resBits.toNat = bitLength p.regs.period.toNat
  reqDuty    : p.req.duty.toNat ≤ 1000
  prevDuty   : p.prev.duty.toNat ≤ 1000

theorem pwm_inv_reset : Pwm.reset.Inv := ⟨rfl, rfl, rfl, by decide, by decide⟩

/-- The derived duty of registers that add up is at most 1000 per mille (41_pwm.md R139, R145.5). -/
theorem derived_duty_le (clk : Count) {r : Counts} (h : r.high.toNat + r.low.toNat = r.period.toNat) :
    (derivedRequests clk.toNat r).duty.toNat ≤ 1000 := by
  obtain ⟨_, hduty, _, _⟩ := derivedRequests_toNat clk r
  rw [hduty]
  split
  · exact Nat.zero_le _
  · exact rdiv_le_of_le_mul (by omega) (by omega)

/-- A branch, committed, establishes the PWM part of the invariant but for the duty request it may leave. -/
theorem reconcile_inv {b : Branch} (hb : b ≠ .none) (cfg : Params) {p : Pwm} (hreq : p.req.duty.toNat ≤ 1000) :
    { reconcile b cfg p with committed := branchCounts b cfg.clk.toNat p }.Inv := by
  have hsum := branchCounts_sum cfg.clk.toNat p hb
  have hduty := derived_duty_le cfg.clk hsum
  refine ⟨rfl, hsum, reconcile_resBits_toNat b cfg p, ?_, hduty⟩
  rw [reconcile_req]
  split
  · exact hduty
  · exact hreq

/-- A clamped request is at most its declared maximum (20_memory.md R65). -/
theorem clampRequest_toNat_le (l : Limits) (v : Word) : (clampRequest l v).toNat ≤ l.hi.toNat :=
  (Nat.mod_le _ _).trans (clamp_le_hi _ _ _)

/-- A write to a register keeps the duty request or stores a clamped one (20_memory.md R65). -/
theorem writeReg_duty (r : Reg) (v : Word) (s : State) :
    (writeReg r v s).pwm.req.duty = s.pwm.req.duty ∨
      (writeReg r v s).pwm.req.duty = clampRequest s.cfg.duty v := by
  cases r <;> simp [writeReg]

/-! ## The history -/

/-- The pair of a register, if it is sent, names that register (41_pwm.md R142). -/
theorem changedPair_names (reg : CounterReg) (new old : Count) :
    ((changedPair reg new old).map Prod.fst).Sublist [reg] := by
  unfold changedPair
  split
  · exact .refl _
  · exact List.nil_sublist _

/-- A commit that is not empty has the form of R74. -/
theorem commitList_wellFormed {new old : Counts} (h : commitList new old ≠ []) :
    (Event.commit (commitList new old)).WellFormed := by
  refine ⟨h, ?_⟩
  simp only [commitList, List.map_append]
  exact ((changedPair_names .period _ _).append (changedPair_names .high _ _)).append (changedPair_names .low _ _)

/-- What `commit()` adds to the history is well formed (20_memory.md R74). -/
theorem commit_eventsWellFormed {s : State} (h : EventsWellFormed s) : EventsWellFormed (commit s) := by
  rw [commit_spec]
  refine List.forall_mem_append.mpr ⟨h, ?_⟩
  split
  · exact List.forall_mem_nil _
  · rename_i hne
    exact List.forall_mem_singleton.mpr (commitList_wellFormed hne)

/-! ## The machine -/

/-- The invariant, unit by unit. -/
theorem inv_iff {s : State} : s.Inv ↔ s.cfg.WellFormed ∧ s.pwm.Inv ∧ s.dds.Inv ∧ EventsWellFormed s where
  mp h := ⟨h.params, ⟨h.committed, h.sum, h.resolution, h.duty.1, h.duty.2⟩, ⟨h.ctrl, h.mode, h.liveFreq⟩, h.events⟩
  mpr := fun ⟨hcfg, hpwm, hdds, hevents⟩ => ⟨hcfg, hpwm.committed, hpwm.sum, hpwm.resolution,
    ⟨hpwm.reqDuty, hpwm.prevDuty⟩, hdds.ctrl, hdds.mode, hdds.liveFreq, hevents⟩

/-- A write to a register keeps the PWM part of the invariant, with legal parameters: a duty request is clamped to a
maximum of at most 1000 (00_scope.md R6, 10_state.md R26). -/
theorem writeReg_pwm_inv (r : Reg) (v : Word) {s : State} (hcfg : s.cfg.WellFormed) (h : s.pwm.Inv) :
    (writeReg r v s).pwm.Inv := by
  obtain ⟨hprev, hregs, hcommitted, _, hres, _⟩ := writeReg_units r v s
  refine ⟨?_, ?_, ?_, ?_, ?_⟩
  · rw [hregs, hcommitted, h.committed]
  · rw [hregs, h.sum]
  · rw [hres, hregs, h.resolution]
  · obtain hkept | hclamped := writeReg_duty r v s
    · rw [hkept]
      exact h.reqDuty
    · obtain ⟨_, _, _, hmax, _⟩ := hcfg
      rw [hclamped]
      exact (clampRequest_toNat_le _ _).trans hmax
  · rw [hprev]
    exact h.prevDuty

/-- A write to a register keeps the DDS part of the invariant, which does not speak of DDS_FREQ and DDS_PHASE. -/
theorem writeReg_dds_inv (r : Reg) (v : Word) {s : State} (h : s.dds.Inv) : (writeReg r v s).dds.Inv := by
  obtain ⟨_, _, _, _, _, hdds⟩ := writeReg_units r v s
  rw [hdds]
  exact ⟨h.ctrl, h.mode, h.liveFreq⟩

/-- What a step can do keeps the invariant. -/
theorem inv_kept : KeptByUnits State.Inv where
  same s t hst h := by
    rw [inv_iff, EventsWellFormed, hst.cfg, hst.pwm, hst.dds, hst.events]
    exact inv_iff.mp h
  branch s b hb h := by
    obtain ⟨hcfg, hpwm, hdds, hevents⟩ := inv_iff.mp h
    have hcommit := commit_eventsWellFormed (s := { s with pwm := reconcile b s.cfg s.pwm }) hevents
    rw [commit_spec] at hcommit ⊢
    exact inv_iff.mpr ⟨hcfg, reconcile_inv hb s.cfg hpwm.reqDuty, hdds, hcommit⟩
  running s b h := by
    obtain ⟨hcfg, hpwm, hdds, hevents⟩ := inv_iff.mp h
    have hpwm' : { s.pwm with running := b }.Inv :=
      ⟨hpwm.committed, hpwm.sum, hpwm.resolution, hpwm.reqDuty, hpwm.prevDuty⟩
    exact inv_iff.mpr ⟨hcfg, hpwm', hdds,
      List.forall_mem_append.mpr ⟨hevents, List.forall_mem_singleton.mpr trivial⟩⟩
  body s body hbody h := by
    obtain ⟨hcfg, hpwm, hdds, hevents⟩ := inv_iff.mp h
    obtain ⟨hpwmEq, hcfgEq⟩ := hbody.frame s
    obtain ⟨ws, hwords⟩ := hbody.events s
    have hserial : ∀ e ∈ ws.map Event.serial, e.WellFormed := List.forall_mem_map.mpr fun _ _ => trivial
    rw [inv_iff, EventsWellFormed, hcfgEq, hpwmEq, hwords]
    exact ⟨hcfg, hpwm, hbody.dds_inv hdds, List.forall_mem_append.mpr ⟨hevents, hserial⟩⟩
  write s r v h := by
    obtain ⟨hcfg, hpwm, hdds, hevents⟩ := inv_iff.mp h
    obtain ⟨_, heventsEq, _, hcfgEq, _⟩ := writeReg_frame r v s
    rw [inv_iff, EventsWellFormed, hcfgEq, heventsEq]
    exact ⟨hcfg, writeReg_pwm_inv r v hcfg hpwm, writeReg_dds_inv r v hdds, hevents⟩
  reset s h := inv_iff.mpr ⟨h.params, pwm_inv_reset, dds_inv_reset, List.forall_mem_nil _⟩

/-- Settles O52: each unit keeps its own part of the invariant; the parameters stay, and legal ones bound the clamped
duty request. -/
theorem stepKeepsTheInvariant : Obligations.StepKeepsTheInvariant := fun _ _ => inv_kept.step

end Sys2Proof.Machine

/-! PROOF. A step sorted by who makes it, and who changes the counts and the lock. Settles O56 and O57. -/

namespace Sys2Proof.Machine

/-- From s to t the physical registers, the committed copies, the snapshots and PWM_RES_BITS stay
(10_state.md R29 to R32). -/
structure SameCounts (s t : State) : Prop where
  regs      : t.pwm.regs = s.pwm.regs
  committed : t.pwm.committed = s.pwm.committed
  prev      : t.pwm.prev = s.pwm.prev
  resBits   : t.pwm.resBits = s.pwm.resBits

theorem SameCounts.of_pwm_eq {s t : State} (h : t.pwm = s.pwm) : SameCounts s t := by
  constructor <;> rw [h]

/-- What every access does that executes no command: the lock and the counts stay. -/
structure QuietAccess (s t : State) : Prop where
  lock   : t.lock = s.lock
  counts : SameCounts s t

theorem writeReg_quiet (r : Reg) (v : Word) (s : State) : QuietAccess s (writeReg r v s) where
  lock := (writeReg_frame r v s).1
  counts := by
    obtain ⟨hprev, hregs, hcommitted, _, hres, _⟩ := writeReg_units r v s
    exact ⟨hregs, hcommitted, hprev, hres⟩

/-- The steps of the machine by who makes them: the HOST by a command, the HOST by another access or nobody, ENV_BUS,
and the reset input (00_scope.md R5, 20_memory.md R76). -/
theorem step_sorted {s t : State} (h : step s = .next t) :
    (∃ i rest, Executes s i ∧ exec i { s with pending := rest } = .next t) ∨ QuietAccess s t ∨
    (∃ rest, s.pending = .envAcquire :: rest ∧ t = envAcquire { s with pending := rest }) ∨
    (∃ rest, s.pending = .envRelease :: rest ∧ t = envRelease { s with pending := rest }) ∨ ResetsNext s := by
  obtain ⟨_, rfl⟩ | ⟨st, rest, hpending, hr⟩ := step_cases h
  · exact .inr (.inl ⟨rfl, .of_pwm_eq rfl⟩)
  cases st with
  | read addr bytes =>
    obtain ⟨_, _, ⟨_, rfl⟩ | ⟨_, rfl⟩⟩ := hostRead_cases hr <;> exact .inr (.inl ⟨rfl, .of_pwm_eq rfl⟩)
  | write addr bytes v =>
    obtain ⟨off, hoff, ⟨_, rfl⟩ | ⟨h0, h8, i, hi, he⟩ | ⟨_, _, _, rfl⟩ | ⟨_, r, _, _, rfl⟩ | ⟨_, _, rfl⟩⟩ :=
      hostWrite_cases hr
    · exact .inr (.inl ⟨rfl, .of_pwm_eq rfl⟩)
    · exact .inl ⟨i, rest, ⟨_, rest, v, hpending, ⟨h0 ▸ hoff, h8, rfl⟩, hi⟩, he⟩
    · exact .inr (.inl ⟨rfl, .of_pwm_eq rfl⟩)
    · obtain ⟨hlock, hregs, hcommitted, hprev, hres⟩ := writeReg_quiet r v { s with pending := rest }
      exact .inr (.inl ⟨hlock, hregs, hcommitted, hprev, hres⟩)
    · exact .inr (.inl ⟨rfl, .of_pwm_eq rfl⟩)
  | envAcquire => cases hr; exact .inr (.inr (.inl ⟨rest, hpending, rfl⟩))
  | envRelease => cases hr; exact .inr (.inr (.inr (.inl ⟨rest, hpending, rfl⟩)))
  | reset => exact .inr (.inr (.inr (.inr ⟨rest, hpending⟩)))

/-! ## The counts -/

/-- PWM_RUN and PWM_STOP touch RUNNING alone of the PWM engine (41_pwm.md R143, R144). -/
theorem setRunning_counts (b : Bool) (s : State) : SameCounts s (setRunning b s) := by
  obtain ⟨_, h⟩ | ⟨_, h⟩ := setRunning_cases b s <;> rw [h] <;> exact ⟨rfl, rfl, rfl, rfl⟩

theorem tryAcquire_pwm (s : State) : (tryAcquire s).2.pwm = s.pwm := by
  unfold tryAcquire
  split <;> rfl

/-- No command but PWM_UPDATE changes the counts. -/
theorem exec_counts {i : Instr} {s t : State} (hi : ∀ force, i ≠ .pwmUpdate force) (h : exec i s = .next t) :
    SameCounts s t := by
  cases i with
  | pwmUpdate force => exact absurd rfl (hi force)
  | nop => cases h; exact .of_pwm_eq rfl
  | pwmRun => cases h; exact setRunning_counts true s
  | pwmStop => cases h; exact setRunning_counts false s
  | ddsSetFreq => cases h; exact .of_pwm_eq (ddsCommand_pwm .setFreq s)
  | ddsSetPhase => cases h; exact .of_pwm_eq (ddsCommand_pwm .setPhase s)
  | ddsSetWaveform k => cases h; exact .of_pwm_eq (ddsCommand_pwm (.setWaveform k) s)
  | ddsStop => cases h; exact .of_pwm_eq (ddsCommand_pwm .stop s)
  | ddsSuspend => cases h; exact .of_pwm_eq (ddsCommand_pwm .suspend s)
  | ddsResume => cases h; exact .of_pwm_eq (ddsCommand_pwm .resume s)
  | busTrylock => cases h; exact .of_pwm_eq (tryAcquire_pwm s)
  | busUnlock => cases h; exact .of_pwm_eq rfl

theorem envAcquire_pwm (s : State) : (envAcquire s).pwm = s.pwm := by
  unfold envAcquire
  split <;> rfl

theorem envRelease_pwm (s : State) : (envRelease s).pwm = s.pwm := by
  unfold envRelease
  split <;> rfl

/-- Settles O56: of the commands only PWM_UPDATE reaches the counts, and no other access and no step of ENV_BUS does. -/
theorem onlyPwmUpdateChangesTheCounts : Obligations.OnlyPwmUpdateChangesTheCounts := by
  unfold Obligations.OnlyPwmUpdateChangesTheCounts
  intro s t h hreset hupdate
  suffices hcounts : SameCounts s t from ⟨hcounts.regs, hcounts.committed, hcounts.prev, hcounts.resBits⟩
  obtain ⟨i, rest, hi, he⟩ | hquiet | ⟨rest, _, rfl⟩ | ⟨rest, _, rfl⟩ | hr := step_sorted h
  · obtain ⟨hregs, hcommitted, hprev, hres⟩ := exec_counts (fun force hf => hupdate force (hf ▸ hi)) he
    exact ⟨hregs, hcommitted, hprev, hres⟩
  · exact hquiet.counts
  · exact .of_pwm_eq (envAcquire_pwm _)
  · exact .of_pwm_eq (envRelease_pwm _)
  · exact absurd hr hreset

/-! ## The lock -/

theorem setRunning_lock (b : Bool) (s : State) : (setRunning b s).lock = s.lock := by
  obtain ⟨_, h⟩ | ⟨_, h⟩ := setRunning_cases b s <;> rw [h]

theorem pwmUpdate_lock (force : Bool) (s : State) : (pwmUpdate force s).lock = s.lock := by
  obtain ⟨_, h⟩ | ⟨_, h⟩ := pwmUpdate_cases force s
  · rw [h]
  · rw [h, commit_spec]

/-- A command that changes the lock is BUS_TRYLOCK on a free one or BUS_UNLOCK on a held one (43_buslock.md R210,
R211); a DDS command gives back what it takes (42_dds.md R170). -/
theorem exec_lock_cases {i : Instr} {s t : State} (h : exec i s = .next t) (hne : t.lock ≠ s.lock) :
    (i = .busTrylock ∧ s.lock = false) ∨ (i = .busUnlock ∧ s.lock = true) := by
  cases i with
  | nop => cases h; exact absurd rfl hne
  | pwmUpdate force => cases h; exact absurd (pwmUpdate_lock force s) hne
  | pwmRun => cases h; exact absurd (setRunning_lock true s) hne
  | pwmStop => cases h; exact absurd (setRunning_lock false s) hne
  | ddsSetFreq | ddsSetPhase | ddsSetWaveform k | ddsStop | ddsSuspend | ddsResume =>
    cases h
    exact absurd (ddsCommand_lock _ s) hne
  | busTrylock =>
    cases hl : s.lock with
    | false => exact .inl ⟨rfl, rfl⟩
    | true =>
      cases h
      rw [tryAcquire_held hl] at hne
      exact absurd rfl hne
  | busUnlock =>
    cases h
    exact .inr ⟨rfl, by simpa using hne.symm⟩

/-- ENV_ACQUIRE changes the lock only where it is free (20_memory.md R76). -/
theorem envAcquire_lock_ne {s : State} (h : (envAcquire s).lock ≠ s.lock) : s.lock = false := by
  cases hl : s.lock with
  | false => rfl
  | true => exact absurd (by simp [envAcquire, hl]) h

/-- ENV_RELEASE changes the lock only where ENV_BUS holds it (20_memory.md R76). -/
theorem envRelease_lock_ne {s : State} (h : (envRelease s).lock ≠ s.lock) : s.envHolds = true := by
  cases hh : s.envHolds with
  | true => rfl
  | false => exact absurd (by simp [envRelease, hh]) h

/-- Settles O57: of the commands only the two of the lock leave it changed, no other access touches it, and the steps of
ENV_BUS change it where they are enabled. -/
theorem lockChangesOnlyByItsUsers : Obligations.LockChangesOnlyByItsUsers := by
  unfold Obligations.LockChangesOnlyByItsUsers
  intro s t h hne
  obtain ⟨i, rest, hi, he⟩ | hquiet | ⟨rest, hp, rfl⟩ | ⟨rest, hp, rfl⟩ | hr := step_sorted h
  · obtain ⟨rfl, hl⟩ | ⟨rfl, hl⟩ := exec_lock_cases he hne
    · exact .inr (.inl ⟨hi, hl⟩)
    · exact .inr (.inr (.inl ⟨hi, hl⟩))
  · exact absurd hquiet.lock hne
  · exact .inr (.inr (.inr (.inl ⟨rest, hp, envAcquire_lock_ne (s := { s with pending := rest }) hne⟩)))
  · exact .inr (.inr (.inr (.inr ⟨rest, hp, envRelease_lock_ne (s := { s with pending := rest }) hne⟩)))
  · exact .inl hr

end Sys2Proof.Machine

/-! PROOF. What the registers read at their offsets, and what a write to one does. Settles O13, O14, O18, O19, O20. -/

namespace Sys2Proof.Machine

/-! ## Reads -/

/-- A register no wider than 64 bits reads its value zero-extended (10_state.md R21). -/
theorem memRead_toNat {s : State} {w : Nat} {v : BitVec w} (r : Reg) (hr : readReg s r = v.setWidth 64) (hw : w ≤ 64) :
    (memRead s r.offset).toNat = v.toNat := by
  rw [memRead_offset, hr, BitVec.toNat_setWidth_of_le hw]

/-- Settles O19: each register at its own offset, the counts zero-extended. -/
theorem pwmRegistersReadTheirValues : Obligations.PwmRegistersReadTheirValues := fun s =>
  ⟨memRead_offset s .pwmFreq, memRead_offset s .pwmDuty, memRead_offset s .pwmTh, memRead_offset s .pwmTl,
    memRead_offset s .pwmFreqPrev, memRead_offset s .pwmDutyPrev, memRead_offset s .pwmThPrev,
    memRead_offset s .pwmTlPrev, memRead_toNat .pwmPeriodReg rfl (by decide), memRead_toNat .pwmThReg rfl (by decide),
    memRead_toNat .pwmTlReg rfl (by decide), memRead_toNat .pwmPeriodRegPrev rfl (by decide),
    memRead_toNat .pwmThRegPrev rfl (by decide), memRead_toNat .pwmTlRegPrev rfl (by decide),
    memRead_offset s .pwmResBits⟩

/-- The DDS limits read those of the current kind (10_state.md R42). -/
theorem memRead_ddsLimits {s : State} {k : Kind} (h : s.dds.kind = k) :
    (memRead s 0x148).toNat = (kindLimits s.cfg k).lo.toNat ∧
    (memRead s 0x150).toNat = (kindLimits s.cfg k).hi.toNat := by
  subst h
  exact ⟨memRead_toNat .ddsFreqMin rfl (by decide), memRead_toNat .ddsFreqMax rfl (by decide)⟩

/-- Settles O18: each limit register at its own offset, the DDS limits for each of the three kinds. -/
theorem limitRegistersReadParameters : Obligations.LimitRegistersReadParameters := fun s =>
  ⟨memRead_offset s .pwmFreqMin, memRead_offset s .pwmFreqMax, memRead_offset s .pwmDutyMin,
    memRead_offset s .pwmDutyMax, memRead_offset s .pwmThMin, memRead_offset s .pwmThMax, memRead_offset s .pwmTlMin,
    memRead_offset s .pwmTlMax, memRead_toNat .pwmClk rfl (by decide), memRead_offset s .ddsChannel,
    memRead_ddsLimits, memRead_ddsLimits, memRead_ddsLimits⟩

/-! STATUS -/

/-- The five single bits of STATUS (10_state.md R23). -/
theorem statusWord_bits (s : State) :
    (statusWord s).getLsbD 0 = s.status.illegal ∧ (statusWord s).getLsbD 1 = s.status.accessErr ∧
    (statusWord s).getLsbD 2 = s.status.ddsDone ∧ (statusWord s).getLsbD 3 = s.status.lockOk ∧
    (statusWord s).getLsbD 4 = s.lock := by
  simp only [statusWord, BitVec.getLsbD_append]
  simp

theorem statusWord_lastBranch (s : State) : (statusWord s).extractLsb' 8 3 = s.status.lastBranch.code := by
  rw [statusWord]
  iterate 6 rw [BitVec.extractLsb'_append_eq_of_le (by decide)]
  exact BitVec.extractLsb'_append_eq_right

theorem statusWord_lastIllegalOp (s : State) : (statusWord s).extractLsb' 16 8 = s.status.lastIllegalOp := by
  rw [statusWord]
  iterate 8 rw [BitVec.extractLsb'_append_eq_of_le (by decide)]
  exact BitVec.extractLsb'_append_eq_right

/-- The bits of no field of STATUS are 0: the mask keeps the constant parts of the word only. -/
theorem statusWord_reserved (s : State) : statusWord s &&& 0xFFFFFFFFFF00F8E0 = 0 := by
  have hmask : (0xFFFFFFFFFF00F8E0 : Word) = BitVec.allOnes 40 ++ 0#8 ++ BitVec.allOnes 5 ++ 0#3 ++ BitVec.allOnes 3 ++
      0#1 ++ 0#1 ++ 0#1 ++ 0#1 ++ 0#1 := by decide
  rw [hmask, statusWord, BitVec.and_append]
  simp only [BitVec.and_append, BitVec.and_zero, BitVec.zero_and]
  rfl

/-- Settles O13: STATUS is put together of its fields, so each stands at its bits. -/
theorem statusReadsItsFields : Obligations.StatusReadsItsFields := by
  unfold Obligations.StatusReadsItsFields
  intro s
  have hread : memRead s 0x008 = statusWord s := memRead_offset s .status
  obtain ⟨hillegal, haccess, hdone, hlockOk, hlock⟩ := statusWord_bits s
  rw [hread]
  refine ⟨hillegal, haccess, hdone, hlockOk, hlock, ?_, statusWord_lastIllegalOp s, statusWord_reserved s⟩
  rw [statusWord_lastBranch]
  cases s.status.lastBranch <;> rfl

/-! DDS_STATE -/

theorem ddsStateWord_kind (d : Dds) : (ddsStateWord d).extractLsb' 0 2 = d.kind.code := by
  rw [ddsStateWord]
  exact BitVec.extractLsb'_append_eq_right

theorem ddsStateWord_running (d : Dds) : (ddsStateWord d).getLsbD 2 = decide (runState d.ctrl = .running) := by
  simp only [ddsStateWord, BitVec.getLsbD_append]
  simp

theorem ddsStateWord_runState (d : Dds) : (ddsStateWord d).extractLsb' 4 2 = (runState d.ctrl).code := by
  rw [ddsStateWord]
  iterate 3 rw [BitVec.extractLsb'_append_eq_of_le (by decide)]
  exact BitVec.extractLsb'_append_eq_right

/-- The bits of no field of DDS_STATE are 0 (10_state.md R38). -/
theorem ddsStateWord_reserved (d : Dds) : ddsStateWord d &&& 0xFFFFFFFFFFFFFFC8 = 0 := by
  have hmask : (0xFFFFFFFFFFFFFFC8 : Word) = BitVec.allOnes 58 ++ 0#2 ++ BitVec.allOnes 1 ++ 0#1 ++ 0#2 := by decide
  rw [hmask, ddsStateWord, BitVec.and_append]
  simp only [BitVec.and_append, BitVec.and_zero, BitVec.zero_and]
  rfl

/-- The channel runs when neither RESET nor SLEEP1 is set (42_dds.md R178). -/
theorem runState_eq_running {c : SerialWord} : runState c = .running ↔ chipReset c = false ∧ chipSleep c = false := by
  unfold runState
  cases chipReset c <;> cases chipSleep c <;> decide

/-- The code of RUNSTATE by RESET and SLEEP1 (42_dds.md R178, 10_state.md R38). -/
theorem runState_code_toNat (c : SerialWord) :
    (runState c).code.toNat = if chipReset c then 0 else if chipSleep c then 1 else 2 := by
  unfold runState
  cases chipReset c <;> cases chipSleep c <;> rfl

/-- Settles O20: each register at its own offset; DDS_STATE is put together of KIND and of RUNNING and RUNSTATE, the
last two computed from DDS_CTRL. -/
theorem ddsRegistersReadTheirValues : Obligations.DdsRegistersReadTheirValues := by
  unfold Obligations.DdsRegistersReadTheirValues
  intro s
  have hread : memRead s 0x118 = ddsStateWord s.dds := memRead_offset s .ddsState
  refine ⟨memRead_toNat .ddsFreq rfl (by decide), memRead_toNat .ddsFreqPrev rfl (by decide),
    memRead_toNat .ddsPhase rfl (by decide), memRead_toNat .ddsCtrl rfl (by decide),
    memRead_toNat .ddsFreq0 rfl (by decide), memRead_toNat .ddsFreq1 rfl (by decide),
    memRead_toNat .ddsPhase0 rfl (by decide), memRead_toNat .ddsPhase1 rfl (by decide),
    ?kind, ?running, ?runState, ?reserved⟩ <;> rw [hread]
  case kind =>
    rw [ddsStateWord_kind]
    cases s.dds.kind <;> rfl
  case running =>
    rw [ddsStateWord_running, decide_eq_true_iff]
    exact runState_eq_running
  case runState =>
    rw [ddsStateWord_runState]
    exact runState_code_toNat s.dds.ctrl
  case reserved => exact ddsStateWord_reserved s.dds

/-! ## Writes -/

/-- Every register stands at a multiple of 8 (10_state.md R21). -/
theorem offset_aligned (r : Reg) : r.offset % 8 = 0 := by
  cases r <;> rfl

/-- An 8-byte HOST write to a register other than CMD takes that register's effect (20_memory.md R64). -/
theorem step_writeReg {s : State} {addr : HostAddr} {v : Word} {rest : List Stimulus} {r : Reg} (hr : r ≠ .cmd)
    (hp : s.pending = .write addr 8 v :: rest) (ha : addr.offset? s.cfg = some r.offset) :
    step s = .next (writeReg r v { s with pending := rest }) := by
  have hwrite : step s = hostWrite addr 8 v { s with pending := rest } := by
    unfold step advance
    rw [hp]
    rfl
  rw [hwrite, hostWrite]
  simp only [ha, Admitted, offset_aligned, and_self, if_true, memWrite, regAt_offset]

/-- Settles O14: a bit written as 1 clears its flag, a bit written as 0 keeps it. -/
theorem statusWriteOneClears : Obligations.StatusWriteOneClears := by
  unfold Obligations.StatusWriteOneClears
  intro s addr v rest hp ha
  rw [step_writeReg (r := .status) (by decide) hp ha]
  have hclear (flag bit : Bool) : (flag && !bit) = if bit then false else flag := by cases bit <;> simp
  simp only [writeReg, Status.writeOneToClear, hclear]

end Sys2Proof.Machine

/-! PROOF. Byte lanes (20_memory.md R62) and the window (R60). Settles O5 and O9. -/

namespace Sys2Proof

/-- The bits from byte k + 1 up, with byte k put below them, are the bits from byte k up (20_memory.md R62). -/
theorem extractLsb'_append_lane (v : Word) (k n : Nat) :
    v.extractLsb' (8 * (k + 1)) n ++ lane v k = v.extractLsb' (8 * k) (n + 8) :=
  BitVec.extractLsb'_append_extractLsb'_eq_extractLsb' rfl

/-- The eight byte lanes make the register again. -/
theorem ofLanes_lanes (v : Word) : ofLanes (lanes v) = some v := by
  have hall : lane v 7 ++ lane v 6 ++ lane v 5 ++ lane v 4 ++ lane v 3 ++ lane v 2 ++ lane v 1 ++ lane v 0 =
      v.extractLsb' 0 64 := by
    rw [show lane v 7 = v.extractLsb' (8 * (6 + 1)) 8 from rfl]
    iterate 7 rw [extractLsb'_append_lane]
  rw [BitVec.extractLsb'_eq_self] at hall
  exact congrArg some hall

theorem lanes_getElem? (v : Word) : ∀ k < 8, (lanes v)[k]? = some (lane v k)
  | 0, _ | 1, _ | 2, _ | 3, _ | 4, _ | 5, _ | 6, _ | 7, _ => rfl

theorem getLsbD_lane (v : Word) (k : Nat) {j : Nat} (hj : j < 8) : (lane v k).getLsbD j = v.getLsbD (8 * k + j) := by
  rw [lane, BitVec.getLsbD_extractLsb', decide_eq_true hj, Bool.true_and]

/-- Settles O5: byte k is cut out of the register at bit 8k, and neighbouring cuts join. -/
theorem byteLanesAreLittleEndian : Obligations.ByteLanesAreLittleEndian := fun v =>
  ⟨ofLanes_lanes v, fun k hk => ⟨lanes_getElem? v k hk, fun _ => getLsbD_lane v k⟩⟩

end Sys2Proof

namespace Sys2Proof.Machine

theorem offset?_absolute {p : Params} {a off : Nat} :
    (HostAddr.absolute a).offset? p = some off ↔ off < 0x200 ∧ a = p.blockBase + off := by
  rw [HostAddr.offset?, Option.ite_none_right_eq_some, Option.some_inj]
  omega

theorem offset?_block {p : Params} {a off : Nat} :
    (HostAddr.block a).offset? p = some off ↔ off < 0x200 ∧ a = off := by
  rw [HostAddr.offset?, Option.ite_none_right_eq_some, Option.some_inj]
  omega

/-- Settles O9, for both ways to name an address (log entry 10). -/
theorem windowStartsAtBlockBase : Obligations.WindowStartsAtBlockBase := fun _ _ _ =>
  ⟨offset?_absolute, offset?_block⟩

end Sys2Proof.Machine

/-! PROOF. One HOST access as a step (20_memory.md R60 to R68). Settles O10, O11, O12, O15, O16 and O17. -/

namespace Sys2Proof.Machine

/-- A step takes the head off `pending` and then its effect (00_scope.md R13). -/
theorem step_cons {s : State} {st : Stimulus} {rest : List Stimulus} (hp : s.pending = st :: rest) :
    step s = respond st { s with pending := rest } := by
  rw [step, advance, hp]

/-- With nothing pending a step is idle (log entry 3). -/
theorem step_nil {s : State} (hp : s.pending = []) : step s = .next s := by
  rw [step, advance, hp]

theorem hostRead_outside {addr : HostAddr} {s : State} (ha : addr.offset? s.cfg = none) (bytes : Nat) :
    hostRead addr bytes s = .fault .outsideWindow := by
  rw [hostRead, ha]

theorem hostWrite_outside {addr : HostAddr} {s : State} (ha : addr.offset? s.cfg = none) (bytes : Nat) (v : Word) :
    hostWrite addr bytes v s = .fault .outsideWindow := by
  rw [hostWrite, ha]

/-- Settles O10: neither access has an answer outside the window; that the model stops there is its own choice (log
entry 6). -/
theorem outsideWindowAccessStops : Obligations.OutsideWindowAccessStops := by
  unfold Obligations.OutsideWindowAccessStops
  intro s addr bytes v rest ha
  constructor <;> intro hp <;> rw [step_cons hp]
  · exact hostRead_outside (s := { s with pending := rest }) ha bytes
  · exact hostWrite_outside (s := { s with pending := rest }) ha bytes v

/-! ## Admitted reads -/

/-- An admitted HOST read answers what memRead gives (20_memory.md R61, R63). -/
theorem hostRead_admitted {addr : HostAddr} {off : Nat} {s : State} (ha : addr.offset? s.cfg = some off)
    (halign : off % 8 = 0) : hostRead addr 8 s = .next (answerRead (memRead s off) s) := by
  rw [hostRead, ha]
  exact if_pos ⟨rfl, halign⟩

/-- No register stands in the two reserved ranges (10_state.md R45). -/
theorem regAt_reserved {off : Nat} (h : (0x0D8 ≤ off ∧ off ≤ 0x0F8) ∨ (0x160 ≤ off ∧ off ≤ 0x1F8)) :
    regAt off = none := by
  have hregs : ∀ r ∈ Reg.all, ¬ ((0x0D8 ≤ r.offset ∧ r.offset ≤ 0x0F8) ∨ (0x160 ≤ r.offset ∧ r.offset ≤ 0x1F8)) := by
    decide
  refine List.find?_eq_none.mpr fun r hr heq => hregs r hr ?_
  rwa [of_decide_eq_true heq]

/-- An offset without a register reads 0 (10_state.md R45). -/
theorem memRead_of_regAt_none (s : State) {off : Nat} (h : regAt off = none) : memRead s off = 0 := by
  rw [memRead, h]

/-- What a read answers depends on the registers, not on what is pending. -/
theorem memRead_withPending (s : State) (rest : List Stimulus) (off : Nat) :
    memRead { s with pending := rest } off = memRead s off := by
  unfold memRead
  cases regAt off with
  | none => rfl
  | some r => cases r <;> rfl

/-- Settles O11: an admitted read writes `readBack`, the model's own field (log entry 5), and no other. -/
theorem readsHaveNoSideEffect : Obligations.ReadsHaveNoSideEffect := by
  unfold Obligations.ReadsHaveNoSideEffect
  refine ⟨?read, fun s => memRead_offset s .cmd, fun s off h _ => memRead_of_regAt_none s (regAt_reserved h)⟩
  case read =>
    intro s addr off rest hp ha halign
    rw [step_cons hp, respond, hostRead_admitted (s := { s with pending := rest }) ha halign, memRead_withPending]
    rfl

/-! ## Admitted writes -/

/-- An admitted HOST write is memWrite at the offset its address names (20_memory.md R61, R64). -/
theorem step_memWrite {s : State} {addr : HostAddr} {off : Nat} {v : Word} {rest : List Stimulus}
    (hp : s.pending = .write addr 8 v :: rest) (ha : addr.offset? s.cfg = some off) (halign : off % 8 = 0) :
    step s = memWrite off v { s with pending := rest } := by
  rw [step_cons hp, respond, hostWrite, ha]
  exact if_pos ⟨rfl, halign⟩

/-- The nine writable registers by their offsets; every other one ignores a write (20_memory.md R64, last row). -/
theorem writeReg_readOnly {r : Reg} (h : r.offset ∉ [0x000, 0x008, 0x010, 0x018, 0x020, 0x028, 0x030, 0x100, 0x110])
    (v : Word) (s : State) : writeReg r v s = s := by
  cases r with
  | cmd | status | pwmCtrl | pwmFreq | pwmDuty | pwmTh | pwmTl | ddsFreq | ddsPhase => exact absurd (by decide) h
  | _ => rfl

/-- Settles O12: at such an offset stands a read-only register or none. -/
theorem readOnlyWritesAreIgnored : Obligations.ReadOnlyWritesAreIgnored := by
  unfold Obligations.ReadOnlyWritesAreIgnored
  intro s addr off v rest hp ha halign hoff
  cases hr : regAt off with
  | none => rw [step_memWrite hp ha halign, memWrite, hr]
  | some r =>
    obtain rfl := offset_of_regAt hr
    have hcmd : r ≠ .cmd := by
      rintro rfl
      exact hoff (by decide)
    rw [step_writeReg hcmd hp ha, writeReg_readOnly hoff]

/-- The clamped request fits its register, so nothing is cut off (20_memory.md R65, 00_scope.md R9). -/
theorem clampRequest_toNat (l : Limits) (v : Word) :
    (clampRequest l v).toNat = min (max v.toNat l.lo.toNat) l.hi.toNat :=
  Nat.mod_eq_of_lt ((clamp_le_hi _ _ _).trans_lt l.hi.isLt)

/-- Settles O16: each of the four requests takes the clamped value; this holds of a held value outside the limits too
(log entry 18, R250). -/
theorem requestWritesAreClamped : Obligations.RequestWritesAreClamped := fun _ _ v _ hp =>
  ⟨fun ha => ⟨clampRequest _ v, clampRequest_toNat _ v, step_writeReg (r := .pwmFreq) (by decide) hp ha⟩,
    fun ha => ⟨clampRequest _ v, clampRequest_toNat _ v, step_writeReg (r := .pwmDuty) (by decide) hp ha⟩,
    fun ha => ⟨clampRequest _ v, clampRequest_toNat _ v, step_writeReg (r := .pwmTh) (by decide) hp ha⟩,
    fun ha => ⟨clampRequest _ v, clampRequest_toNat _ v, step_writeReg (r := .pwmTl) (by decide) hp ha⟩⟩

/-- Settles O17: the two data words of the DDS channel keep the low bits of what is written. -/
theorem ddsWordWritesAreMasked : Obligations.DdsWordWritesAreMasked := fun _ _ _ _ hp =>
  ⟨step_writeReg (r := .ddsFreq) (by decide) hp, step_writeReg (r := .ddsPhase) (by decide) hp⟩

/-- Every bit of PWM_CTRL as the HOST reads it (10_state.md R24). -/
theorem getLsbD_pwmCtrlWord (p : Pwm) (i : Nat) :
    (pwmCtrlWord p).getLsbD i = if i = 0 then p.linked else if i = 1 then p.running else false := by
  rw [pwmCtrlWord, BitVec.getLsbD_append, BitVec.getLsbD_append]
  match i with
  | 0 => simp
  | 1 => simp
  | i + 2 => simp

/-- Settles O15: a write reaches LINKED alone, a read shows LINKED and RUNNING. -/
theorem pwmCtrlHoldsLinkedAndRunning : Obligations.PwmCtrlHoldsLinkedAndRunning := by
  unfold Obligations.PwmCtrlHoldsLinkedAndRunning
  refine ⟨fun _ _ _ _ hp ha => step_writeReg (r := .pwmCtrl) (by decide) hp ha, fun s i => ?_⟩
  rw [← getLsbD_pwmCtrlWord]
  exact congrArg (BitVec.getLsbD · i) (memRead_offset s .pwmCtrl)

end Sys2Proof.Machine

/-! PROOF. The steps of ENV_BUS and what the HOST's steps leave to it (20_memory.md R76, 43_buslock.md R211). Settles
O21 and O22. -/

namespace Sys2Proof.Machine

/-! ## The steps of ENV_BUS -/

theorem envAcquire_free {s : State} (h : s.lock = false) :
    envAcquire s = { s with lock := true, envHolds := true } := by
  simp [envAcquire, h]

theorem envAcquire_held {s : State} (h : s.lock = true) : envAcquire s = s := if_pos h

theorem envRelease_holding {s : State} (h : s.envHolds = true) :
    envRelease s = { s with lock := false, envHolds := false } := if_pos h

theorem envRelease_not_holding {s : State} (h : s.envHolds = false) : envRelease s = s := by
  simp [envRelease, h]

/-- Settles O21: each entry where it is enabled and, by the model's own choices (log entries 4 and 3), where it is not
and where nothing is pending. -/
theorem environmentStepsMoveTheLock : Obligations.EnvironmentStepsMoveTheLock := by
  unfold Obligations.EnvironmentStepsMoveTheLock
  intro s rest
  refine ⟨fun hp hl => ?_, fun hp hl => ?_, fun hp hh => ?_, fun hp hh => ?_, step_nil⟩ <;> rw [step_cons hp, respond]
  · rw [envAcquire_free (s := { s with pending := rest }) hl]
  · rw [envAcquire_held (s := { s with pending := rest }) hl]
  · rw [envRelease_holding (s := { s with pending := rest }) hh]
  · rw [envRelease_not_holding (s := { s with pending := rest }) hh]

/-- After ENV_ACQUIRE the lock is held, whoever holds it. -/
theorem envAcquire_lock (s : State) : (envAcquire s).lock = true := by
  cases hl : s.lock with
  | false => rw [envAcquire_free hl]
  | true => rw [envAcquire_held hl, hl]

/-- After ENV_RELEASE the lock is not held by ENV_BUS. -/
theorem envRelease_envHolds (s : State) : (envRelease s).envHolds = false := by
  cases hh : s.envHolds with
  | true => rw [envRelease_holding hh]
  | false => rw [envRelease_not_holding hh, hh]

theorem envAcquire_events (s : State) : (envAcquire s).events = s.events := by
  cases hl : s.lock with
  | false => rw [envAcquire_free hl]
  | true => rw [envAcquire_held hl]

theorem envRelease_events (s : State) : (envRelease s).events = s.events := by
  cases hh : s.envHolds with
  | true => rw [envRelease_holding hh]
  | false => rw [envRelease_not_holding hh]

/-! ## What an access leaves that executes no command -/

/-- From s to t the lock, the history and env_holds stay: no command, no step of ENV_BUS and no reset came between. -/
structure SilentAccess (s t : State) : Prop where
  lock     : t.lock = s.lock
  events   : t.events = s.events
  envHolds : t.envHolds = s.envHolds

theorem hostRead_silent {addr : HostAddr} {bytes : Nat} {s t : State} (h : hostRead addr bytes s = .next t) :
    SilentAccess s t := by
  obtain ⟨_, _, ⟨_, rfl⟩ | ⟨_, rfl⟩⟩ := hostRead_cases h <;> exact ⟨rfl, rfl, rfl⟩

/-- A HOST write executes the command it writes to CMD or is silent (20_memory.md R64, 40_dispatch.md R120). -/
theorem hostWrite_executes_or_silent {addr : HostAddr} {bytes : Nat} {v : Word} {s t : State}
    (h : hostWrite addr bytes v s = .next t) :
    (∃ i, (Stimulus.write addr bytes v).IsCmdWrite s.cfg v ∧ decode v = .ok i ∧ exec i s = .next t) ∨
      SilentAccess s t := by
  obtain ⟨off, hoff, ⟨_, rfl⟩ | ⟨rfl, h8, i, hi, he⟩ | ⟨_, _, _, rfl⟩ | ⟨_, r, _, _, rfl⟩ | ⟨_, _, rfl⟩⟩ :=
    hostWrite_cases h
  · exact .inr ⟨rfl, rfl, rfl⟩
  · exact .inl ⟨i, ⟨hoff, h8, rfl⟩, hi, he⟩
  · exact .inr ⟨rfl, rfl, rfl⟩
  · obtain ⟨hlock, hevents, henv, _⟩ := writeReg_frame r v s
    exact .inr ⟨hlock, hevents, henv⟩
  · exact .inr ⟨rfl, rfl, rfl⟩

/-- A step executes a command, is silent, or has the whole effect of an entry of ENV_BUS or of reset. What step_sorted
says of the counts, this says of the history and env_holds. -/
theorem step_executes_or_silent {s t : State} (h : step s = .next t) :
    (∃ i rest, Executes s i ∧ exec i { s with pending := rest } = .next t) ∨ SilentAccess s t ∨
    (∃ rest, t = envAcquire { s with pending := rest }) ∨ (∃ rest, t = envRelease { s with pending := rest }) ∨
    (ResetsNext s ∧ ∃ rest, t = resetBlock { s with pending := rest }) := by
  obtain ⟨_, rfl⟩ | ⟨st, rest, hp, hr⟩ := step_cases h
  · exact .inr (.inl ⟨rfl, rfl, rfl⟩)
  cases st with
  | read addr bytes =>
    obtain ⟨hlock, hevents, henv⟩ := hostRead_silent hr
    exact .inr (.inl ⟨hlock, hevents, henv⟩)
  | write addr bytes v =>
    obtain ⟨i, hcmd, hi, he⟩ | ⟨hlock, hevents, henv⟩ := hostWrite_executes_or_silent hr
    · exact .inl ⟨i, rest, ⟨_, rest, v, hp, hcmd, hi⟩, he⟩
    · exact .inr (.inl ⟨hlock, hevents, henv⟩)
  | envAcquire => cases hr; exact .inr (.inr (.inl ⟨rest, rfl⟩))
  | envRelease => cases hr; exact .inr (.inr (.inr (.inl ⟨rest, rfl⟩)))
  | reset => cases hr; exact .inr (.inr (.inr (.inr ⟨⟨rest, hp⟩, rest, rfl⟩)))

/-! ## The hold of ENV_BUS -/

theorem ddsCommand_envHolds {body : State → State} (h : IsDdsBody body) (s : State) :
    (ddsCommand body s).envHolds = s.envHolds := by
  cases hl : s.lock with
  | false =>
    rw [ddsCommand_performed hl]
    cases h <;> rfl
  | true => rw [ddsCommand_dropped hl]

/-- No command touches env_holds, BUS_UNLOCK included (43_buslock.md R211). -/
theorem exec_envHolds {i : Instr} {s t : State} (h : exec i s = .next t) : t.envHolds = s.envHolds := by
  cases i with
  | nop => cases h; rfl
  | pwmUpdate force =>
    cases h
    obtain ⟨_, hu⟩ | ⟨_, hu⟩ := pwmUpdate_cases force s
    · rw [hu]
    · rw [hu, commit_spec]
  | pwmRun | pwmStop =>
    cases h
    obtain ⟨_, hr⟩ | ⟨_, hr⟩ := setRunning_cases _ s <;> rw [hr]
  | ddsSetFreq => cases h; exact ddsCommand_envHolds .setFreq s
  | ddsSetPhase => cases h; exact ddsCommand_envHolds .setPhase s
  | ddsSetWaveform k => cases h; exact ddsCommand_envHolds (.setWaveform k) s
  | ddsStop => cases h; exact ddsCommand_envHolds .stop s
  | ddsSuspend => cases h; exact ddsCommand_envHolds .suspend s
  | ddsResume => cases h; exact ddsCommand_envHolds .resume s
  | busTrylock =>
    cases h
    cases hl : s.lock with
    | false => rw [tryAcquire_free hl]; rfl
    | true => rw [tryAcquire_held hl]; rfl
  | busUnlock => cases h; rfl

/-- Of the commands BUS_UNLOCK alone clears a held lock (43_buslock.md R211). -/
theorem exec_keeps_held_lock {i : Instr} {s t : State} (hi : i ≠ .busUnlock) (h : exec i s = .next t)
    (hl : s.lock = true) : t.lock = true := by
  by_contra hne
  obtain ⟨_, hfree⟩ | ⟨rfl, _⟩ := exec_lock_cases h (hl ▸ hne)
  · exact absurd (hl.symm.trans hfree) (by decide)
  · exact hi rfl

/-- Settles O22: a command leaves env_holds and, but for BUS_UNLOCK, a held lock; the lock is
held after ENV_ACQUIRE, and after ENV_RELEASE and after reset ENV_BUS holds nothing. -/
theorem environmentHoldEndsOnlyByHostUnlock : Obligations.EnvironmentHoldEndsOnlyByHostUnlock := by
  unfold Obligations.EnvironmentHoldEndsOnlyByHostUnlock
  intro s t hinv h hunlock henv
  obtain ⟨i, rest, hi, he⟩ | hsilent | ⟨rest, rfl⟩ | ⟨rest, rfl⟩ | ⟨_, rest, rfl⟩ := step_executes_or_silent h
  · have hheld : s.lock = true := hinv ((exec_envHolds he).symm.trans henv)
    exact exec_keeps_held_lock (fun hu => hunlock (hu ▸ hi)) he hheld
  · rw [hsilent.lock]
    exact hinv (hsilent.envHolds.symm.trans henv)
  · exact envAcquire_lock _
  · rw [envRelease_envHolds] at henv
    cases henv
  · cases henv

end Sys2Proof.Machine

/-! PROOF. What PWM_UPDATE depends on, and where events come from (20_memory.md R73 to R75). Settles O41 and O55. -/

namespace Sys2Proof.Machine

/-! ## PWM_UPDATE as a function of the PWM engine and the parameters -/

/-- The PWM engine after PWM_UPDATE, the committed copies included (41_pwm.md R130, R142). -/
def updatedPwm (force : Bool) (cfg : Params) (p : Pwm) : Pwm :=
  if selectBranch force p = .none then p
  else
    { reconcile (selectBranch force p) cfg p with committed := branchCounts (selectBranch force p) cfg.clk.toNat p }

/-- What `commit()` adds to the history for these registers and copies (41_pwm.md R142). -/
def commitEvents (new old : Counts) : List Event :=
  if commitList new old = [] then [] else [.commit (commitList new old)]

/-- What PWM_UPDATE adds to the history. -/
def updateEvents (force : Bool) (cfg : Params) (p : Pwm) : List Event :=
  if selectBranch force p = .none then []
  else commitEvents (branchCounts (selectBranch force p) cfg.clk.toNat p) p.committed

/-- PWM_UPDATE as one change of the state; of the state it reads the PWM engine and the parameters alone
(20_memory.md R74, 41_pwm.md R130). -/
theorem pwmUpdate_eq (force : Bool) (s : State) :
    pwmUpdate force s = { s with
      status := { s.status with lastBranch := selectBranch force s.pwm }
      pwm := updatedPwm force s.cfg s.pwm
      events := s.events ++ updateEvents force s.cfg s.pwm } := by
  obtain ⟨hb, hu⟩ | ⟨hb, hu⟩ := pwmUpdate_cases force s
  · simp only [hu, updatedPwm, updateEvents, hb, if_true, List.append_nil]
  · rw [hu, commit_spec, updatedPwm, updateEvents, if_neg hb, if_neg hb]
    rfl

/-- Settles O41: what PWM_UPDATE writes and what it emits are functions of the PWM engine and the parameters. -/
theorem pwmUpdateIgnoresDdsAndLock : Obligations.PwmUpdateIgnoresDdsAndLock := by
  unfold Obligations.PwmUpdateIgnoresDdsAndLock
  intro s s' force hpwm hcfg
  refine ⟨pwmUpdate force s, pwmUpdate force s', rfl, rfl, ?_⟩
  rw [pwmUpdate_eq, pwmUpdate_eq, hpwm, hcfg]
  exact ⟨rfl, rfl, _, rfl, rfl⟩

/-! ## Where events come from -/

/-- The command i, executed in s, may emit the event: a serial word if it is a DDS command and the lock is free, a
commit if it is PWM_UPDATE, an enable if it is PWM_RUN or PWM_STOP (20_memory.md R73 to R75). -/
def Event.ComesFrom (s : State) (i : Instr) : Event → Prop
  | .serial _ => s.lock = false ∧ i.IsDds
  | .commit _ => ∃ force, i = .pwmUpdate force
  | .enable true => i = .pwmRun
  | .enable false => i = .pwmStop

/-- From s to t the history only grows, by events that meet P. -/
def AddsEvents (P : Event → Prop) (s t : State) : Prop := ∃ es, t.events = s.events ++ es ∧ ∀ e ∈ es, P e

theorem AddsEvents.of_events_eq {P : Event → Prop} {s t : State} (h : t.events = s.events) : AddsEvents P s t :=
  ⟨[], h.trans (List.append_nil _).symm, List.forall_mem_nil _⟩

theorem AddsEvents.mono {P Q : Event → Prop} {s t : State} (hPQ : ∀ e, P e → Q e) :
    AddsEvents P s t → AddsEvents Q s t := fun ⟨es, hes, hP⟩ => ⟨es, hes, fun e he => hPQ e (hP e he)⟩

/-- PWM_UPDATE emits commits (20_memory.md R74). -/
theorem updateEvents_commit {force : Bool} {cfg : Params} {p : Pwm} {e : Event} (he : e ∈ updateEvents force cfg p) :
    ∃ l, e = .commit l := by
  unfold updateEvents commitEvents at he
  split at he
  · cases he
  · split at he
    · cases he
    · exact ⟨_, List.mem_singleton.mp he⟩

theorem pwmUpdate_addsEvents (force : Bool) (s : State) :
    AddsEvents (Event.ComesFrom s (.pwmUpdate force)) s (pwmUpdate force s) := by
  refine ⟨updateEvents force s.cfg s.pwm, by rw [pwmUpdate_eq], fun e he => ?_⟩
  obtain ⟨l, rfl⟩ := updateEvents_commit he
  exact ⟨force, rfl⟩

/-- PWM_RUN and PWM_STOP emit their own enable (20_memory.md R75). -/
theorem setRunning_addsEvents {i : Instr} {b : Bool} {s : State} (hi : (Event.enable b).ComesFrom s i) :
    AddsEvents (Event.ComesFrom s i) s (setRunning b s) := by
  obtain ⟨_, h⟩ | ⟨_, h⟩ := setRunning_cases b s <;> rw [h]
  · exact .of_events_eq rfl
  · exact ⟨[.enable b], rfl, List.forall_mem_singleton.mpr hi⟩

/-- A DDS command emits serial words, and only where it finds the lock free (20_memory.md R73, 42_dds.md R171). -/
theorem ddsCommand_addsEvents {i : Instr} {body : State → State} {s : State} (hi : i.IsDds) (hbody : IsDdsBody body) :
    AddsEvents (Event.ComesFrom s i) s (ddsCommand body s) := by
  cases hl : s.lock with
  | false =>
    obtain ⟨ws, hws⟩ := hbody.events { s with lock := true }
    rw [ddsCommand_performed hl]
    exact ⟨ws.map .serial, hws, List.forall_mem_map.mpr fun _ _ => ⟨hl, hi⟩⟩
  | true =>
    rw [ddsCommand_dropped hl]
    exact .of_events_eq rfl

theorem tryAcquire_events (s : State) : (tryAcquire s).2.events = s.events := by
  unfold tryAcquire
  split <;> rfl

/-- Every command only adds to the history, and events of its own kind. -/
theorem exec_addsEvents {i : Instr} {s t : State} (h : exec i s = .next t) : AddsEvents (Event.ComesFrom s i) s t := by
  cases i with
  | nop => cases h; exact .of_events_eq rfl
  | pwmUpdate force => cases h; exact pwmUpdate_addsEvents force s
  | pwmRun => cases h; exact setRunning_addsEvents rfl
  | pwmStop => cases h; exact setRunning_addsEvents rfl
  | ddsSetFreq => cases h; exact ddsCommand_addsEvents trivial .setFreq
  | ddsSetPhase => cases h; exact ddsCommand_addsEvents trivial .setPhase
  | ddsSetWaveform k => cases h; exact ddsCommand_addsEvents trivial (.setWaveform k)
  | ddsStop => cases h; exact ddsCommand_addsEvents trivial .stop
  | ddsSuspend => cases h; exact ddsCommand_addsEvents trivial .suspend
  | ddsResume => cases h; exact ddsCommand_addsEvents trivial .resume
  | busTrylock => cases h; exact .of_events_eq (tryAcquire_events s)
  | busUnlock => cases h; exact .of_events_eq rfl

/-- Apart from reset a step only adds to the history, and what it adds comes from the command it executes. -/
theorem step_addsEvents {s t : State} (h : step s = .next t) (hreset : ¬ ResetsNext s) :
    AddsEvents (fun e => ∃ i, Executes s i ∧ e.ComesFrom s i) s t := by
  obtain ⟨i, rest, hi, he⟩ | hsilent | ⟨rest, rfl⟩ | ⟨rest, rfl⟩ | ⟨hr, _⟩ := step_executes_or_silent h
  · exact (exec_addsEvents he).mono fun e hfrom => ⟨i, hi, hfrom⟩
  · exact .of_events_eq hsilent.events
  · exact .of_events_eq (envAcquire_events _)
  · exact .of_events_eq (envRelease_events _)
  · exact absurd hr hreset

/-- Settles O55: the command that an added event comes from is the one the step executes. -/
theorem eventsComeFromTheirOwnCommands : Obligations.EventsComeFromTheirOwnCommands := by
  unfold Obligations.EventsComeFromTheirOwnCommands
  intro s t h hreset
  obtain ⟨es, hes, hfrom⟩ := step_addsEvents h hreset
  refine ⟨es, hes, fun e he => ?_⟩
  obtain ⟨i, hi, hcomes⟩ := hfrom e he
  match e, hcomes with
  | .serial _, ⟨hl, hdds⟩ => exact ⟨hl, i, hdds, hi⟩
  | .commit _, ⟨force, hcmd⟩ => exact ⟨force, hcmd ▸ hi⟩
  | .enable true, hcmd => exact hcmd ▸ hi
  | .enable false, hcmd => exact hcmd ▸ hi

end Sys2Proof.Machine

/-! PROOF. The fields of a command word, and the decoder as the inverse of the encoder (30_encoding.md R90 to R94).
Settles O1, O2, O3 and O4. -/

namespace Sys2Proof

/-! ## The fields of a word -/

/-- Two bit strings put together are the one whose upper and lower bits they are. -/
theorem eq_append_iff {m n : Nat} {x : BitVec (m + n)} {hi : BitVec m} {lo : BitVec n} :
    x = hi ++ lo ↔ x.extractLsb' n m = hi ∧ x.extractLsb' 0 n = lo := by
  constructor
  · rintro rfl
    exact ⟨BitVec.extractLsb'_append_eq_left, BitVec.extractLsb'_append_eq_right⟩
  · rintro ⟨rfl, rfl⟩
    exact BitVec.extractLsb'_append_extractLsb'.symm

/-- A bit string is 0 under a mask of its upper bits exactly when those bits are 0. -/
theorem and_upper_eq_zero_iff {m n : Nat} {x : BitVec (m + n)} :
    x &&& (BitVec.allOnes m ++ 0#n) = 0#m ++ 0#n ↔ x.extractLsb' n m = 0#m := by
  rw [eq_append_iff, BitVec.extractLsb'_and, BitVec.extractLsb'_and, BitVec.extractLsb'_append_eq_left,
    BitVec.extractLsb'_append_eq_right, BitVec.and_allOnes, BitVec.and_zero, and_iff_left rfl]

/-- A command word is its three fields put together (30_encoding.md R90). -/
theorem eq_fields_iff {c : Word} {rsv : BitVec 48} {arg op : BitVec 8} :
    c = rsv ++ arg ++ op ↔ rsvOf c = rsv ∧ argOf c = arg ∧ opOf c = op := by
  have hupper : c.extractLsb' 8 56 = rsvOf c ++ argOf c :=
    (BitVec.extractLsb'_append_extractLsb'_eq_extractLsb' (len₂ := 48) (len₁ := 8) rfl).symm
  calc c = rsv ++ arg ++ op
    _ ↔ c.extractLsb' 8 56 = rsv ++ arg ∧ opOf c = op := eq_append_iff (m := 56) (n := 8)
    _ ↔ (rsvOf c = rsv ∧ argOf c = arg) ∧ opOf c = op := by
      obtain ⟨hrsv, harg⟩ := (eq_append_iff (m := 48) (n := 8)).mp hupper
      rw [eq_append_iff (m := 48) (n := 8), hrsv, harg]
    _ ↔ rsvOf c = rsv ∧ argOf c = arg ∧ opOf c = op := and_assoc

theorem eq_encode_iff {c : Word} {i : Instr} : c = encode i ↔ rsvOf c = 0 ∧ argOf c = i.arg ∧ opOf c = i.op :=
  eq_fields_iff

theorem rsvOf_and (c d : Word) : rsvOf (c &&& d) = rsvOf c &&& rsvOf d := BitVec.extractLsb'_and

theorem argOf_and (c d : Word) : argOf (c &&& d) = argOf c &&& argOf d := BitVec.extractLsb'_and

theorem opOf_and (c d : Word) : opOf (c &&& d) = opOf c &&& opOf d := BitVec.extractLsb'_and

/-! ## ARG of PWM_UPDATE and of DDS_SET_WAVEFORM -/

/-- ARG holds `force` and no other bit (30_encoding.md R91). -/
theorem pwmUpdate_arg_iff {arg : BitVec 8} {force : Bool} :
    (Instr.pwmUpdate force).arg = arg ↔ arg.extractLsb' 1 7 = 0 ∧ arg.getLsbD 0 = force :=
  calc (Instr.pwmUpdate force).arg = arg
    _ ↔ arg.extractLsb' 1 7 = 0 ∧ arg.extractLsb' 0 1 = BitVec.ofBool force :=
      eq_comm.trans (eq_append_iff (m := 7) (n := 1))
    _ ↔ arg.extractLsb' 1 7 = 0 ∧ arg.getLsbD 0 = force := by
      rw [← BitVec.setWidth_eq_extractLsb' (by decide), BitVec.setWidth_one, BitVec.ofBool_eq_iff_eq]

/-- ARG holds the code of the kind and no other bit (30_encoding.md R91). -/
theorem ddsSetWaveform_arg_iff {arg : BitVec 8} {k : Kind} :
    (Instr.ddsSetWaveform k).arg = arg ↔ arg.extractLsb' 2 6 = 0 ∧ arg.extractLsb' 0 2 = k.code :=
  eq_comm.trans (eq_append_iff (m := 6) (n := 2))

theorem kindOfCode_eq_some_iff {code : BitVec 2} {k : Kind} : kindOfCode code = some k ↔ code = k.code := by
  revert code
  cases k <;> decide

/-- Of the four codes only 3 names no kind (30_encoding.md R99). -/
theorem exists_kind_of_code : ∀ code : BitVec 2, code ≠ 3 → ∃ k : Kind, code = k.code
  | 0, _ => ⟨.dc, rfl⟩
  | 1, _ => ⟨.triangle, rfl⟩
  | 2, _ => ⟨.sine, rfl⟩
  | 3, h => absurd rfl h

/-! ## The decoder -/

theorem decodeNoArg_eq_ok_iff {arg : BitVec 8} {i j : Instr} : decodeNoArg arg i = .ok j ↔ arg = 0 ∧ i = j := by
  unfold decodeNoArg
  split
  case isTrue hz => rw [Except.ok.injEq, and_iff_right hz]
  case isFalse hnz => exact ⟨fun h => (by cases h), fun h => absurd h.1 hnz⟩

theorem decodePwmUpdate_eq_ok_iff {arg : BitVec 8} {i : Instr} :
    decodePwmUpdate arg = .ok i ↔ ∃ force, i = .pwmUpdate force ∧ i.arg = arg := by
  constructor
  · unfold decodePwmUpdate
    intro h
    split at h
    case isTrue hz => cases h; exact ⟨_, rfl, pwmUpdate_arg_iff.mpr ⟨hz, rfl⟩⟩
    case isFalse => cases h
  · rintro ⟨force, rfl, ha⟩
    obtain ⟨hz, rfl⟩ := pwmUpdate_arg_iff.mp ha
    exact if_pos hz

theorem decodeWaveform_eq_ok_iff {arg : BitVec 8} {i : Instr} :
    decodeWaveform arg = .ok i ↔ ∃ k, i = .ddsSetWaveform k ∧ i.arg = arg := by
  constructor
  · unfold decodeWaveform
    intro h
    split at h
    case isTrue hz =>
      split at h
      next k hk => cases h; exact ⟨k, rfl, ddsSetWaveform_arg_iff.mpr ⟨hz, kindOfCode_eq_some_iff.mp hk⟩⟩
      next => cases h
    case isFalse => cases h
  · rintro ⟨k, rfl, ha⟩
    obtain ⟨hz, hk⟩ := ddsSetWaveform_arg_iff.mp ha
    rw [decodeWaveform, if_pos hz, kindOfCode_eq_some_iff.mpr hk]

/-- The command that OP and ARG decode to has this OP and this ARG. Of the arms of the opcode map the second
(PWM_UPDATE) and the seventh (DDS_SET_WAVEFORM) read an operand, and the last one is no command. -/
theorem op_and_arg_of_decodeOp {op arg : BitVec 8} {i : Instr} (h : decodeOp op arg = .ok i) :
    i.op = op ∧ i.arg = arg := by
  have noArg {j : Instr} (hop : op.toNat = j.op.toNat) (hj : j.arg = 0) (h : decodeNoArg arg j = .ok i) :
      i.op = op ∧ i.arg = arg := by
    obtain ⟨rfl, rfl⟩ := decodeNoArg_eq_ok_iff.mp h
    exact ⟨BitVec.eq_of_toNat_eq hop.symm, hj⟩
  unfold decodeOp at h
  split at h
  case h_2 hop =>
    obtain ⟨force, rfl, ha⟩ := decodePwmUpdate_eq_ok_iff.mp h
    exact ⟨BitVec.eq_of_toNat_eq hop.symm, ha⟩
  case h_7 hop =>
    obtain ⟨k, rfl, ha⟩ := decodeWaveform_eq_ok_iff.mp h
    exact ⟨BitVec.eq_of_toNat_eq hop.symm, ha⟩
  case h_13 => cases h
  all_goals exact noArg ‹_› rfl h

/-- Decoding, field by field. -/
theorem decode_eq (c : Word) :
    decode c = if rsvOf c = 0 then decodeOp (opOf c) (argOf c) else .error .rsvNotZero := rfl

theorem decodeOp_op_arg (i : Instr) : decodeOp i.op i.arg = .ok i := by
  cases i with
  | pwmUpdate force => exact decodePwmUpdate_eq_ok_iff.mpr ⟨force, rfl, rfl⟩
  | ddsSetWaveform k => exact decodeWaveform_eq_ok_iff.mpr ⟨k, rfl, rfl⟩
  | _ => rfl

/-- Settles O1: a word is read field by field; RSV is 0 in both directions, and OP and ARG are those of the command. -/
theorem decodeAndEncodeAgree : Obligations.DecodeAndEncodeAgree := by
  unfold Obligations.DecodeAndEncodeAgree
  intro c i
  rw [decode_eq, eq_encode_iff]
  split
  case isTrue hrsv =>
    constructor
    · intro h
      obtain ⟨hop, harg⟩ := op_and_arg_of_decodeOp h
      exact ⟨hrsv, harg.symm, hop.symm⟩
    · rintro ⟨-, harg, hop⟩
      rw [harg, hop, decodeOp_op_arg]
  case isFalse hrsv => exact ⟨fun h => (by cases h), fun h => absurd h.1 hrsv⟩

theorem decode_encode (i : Instr) : decode (encode i) = .ok i := (decodeAndEncodeAgree _ i).mpr rfl

/-- The fields of a word that decodes to i are those of i. -/
theorem decode_eq_ok_iff {c : Word} {i : Instr} :
    decode c = .ok i ↔ rsvOf c = 0 ∧ argOf c = i.arg ∧ opOf c = i.op :=
  (decodeAndEncodeAgree c i).trans eq_encode_iff

/-- Settles O4: each listed word is the encoding of its command. -/
theorem listedWordsDecode : Obligations.ListedWordsDecode :=
  ⟨decode_encode .nop, decode_encode (.pwmUpdate false), decode_encode (.pwmUpdate true), decode_encode .pwmRun,
    decode_encode .pwmStop, decode_encode .ddsSetFreq, decode_encode .ddsSetPhase, decode_encode (.ddsSetWaveform .dc),
    decode_encode (.ddsSetWaveform .triangle), decode_encode (.ddsSetWaveform .sine), decode_encode .ddsStop,
    decode_encode .ddsSuspend, decode_encode .ddsResume, decode_encode .busTrylock, decode_encode .busUnlock, rfl⟩

/-! ## Legal words -/

/-- The law of the encoder, for every command. -/
theorem encode_legal : ∀ i : Instr, Laws.EncodeLegal.Statement i
  | .nop => Laws.EncodeLegal.nop
  | .pwmUpdate force => Laws.EncodeLegal.pwmUpdate force
  | .pwmRun => Laws.EncodeLegal.pwmRun
  | .pwmStop => Laws.EncodeLegal.pwmStop
  | .ddsSetFreq => Laws.EncodeLegal.ddsSetFreq
  | .ddsSetPhase => Laws.EncodeLegal.ddsSetPhase
  | .ddsSetWaveform k => Laws.EncodeLegal.ddsSetWaveform k
  | .ddsStop => Laws.EncodeLegal.ddsStop
  | .ddsSuspend => Laws.EncodeLegal.ddsSuspend
  | .ddsResume => Laws.EncodeLegal.ddsResume
  | .busTrylock => Laws.EncodeLegal.busTrylock
  | .busUnlock => Laws.EncodeLegal.busUnlock

/-- Each assigned OP is some command's (30_encoding.md R92). -/
theorem exists_instr_of_op {op : BitVec 8} (h : op ∈ assignedOps) : ∃ i : Instr, i.op = op := by
  have hops : assignedOps = [Instr.nop, .pwmUpdate false, .pwmRun, .pwmStop, .ddsSetFreq, .ddsSetPhase,
    .ddsSetWaveform .dc, .ddsStop, .ddsSuspend, .ddsResume, .busTrylock, .busUnlock].map Instr.op := rfl
  rw [hops] at h
  obtain ⟨i, -, hi⟩ := List.mem_map.mp h
  exact ⟨i, hi⟩

/-- With the OP of a command every ARG that R93.3 and R93.4 let through is the ARG of a command with that OP. -/
theorem exists_instr_of_arg (i : Instr) {arg : BitVec 8} (harg : arg &&& argMustBeZero i.op = 0)
    (hkind : ¬(i.op = 0x12 ∧ arg.extractLsb' 0 2 = 3)) : ∃ j : Instr, j.op = i.op ∧ j.arg = arg := by
  cases i with
  | pwmUpdate force =>
    have hz : arg.extractLsb' 1 7 = 0#7 := and_upper_eq_zero_iff.mp harg
    exact ⟨.pwmUpdate (arg.getLsbD 0), rfl, pwmUpdate_arg_iff.mpr ⟨hz, rfl⟩⟩
  | ddsSetWaveform k =>
    have hz : arg.extractLsb' 2 6 = 0#6 := and_upper_eq_zero_iff.mp harg
    obtain ⟨k', hk⟩ := exists_kind_of_code (arg.extractLsb' 0 2) fun h3 => hkind ⟨rfl, h3⟩
    exact ⟨.ddsSetWaveform k', rfl, ddsSetWaveform_arg_iff.mpr ⟨hz, hk⟩⟩
  | _ => exact ⟨_, rfl, harg.symm.trans BitVec.and_allOnes⟩

/-- The first half of O2: no condition of 30_encoding.md R93 holds exactly when some command is decoded. -/
theorem exists_decode_iff_legalWord {c : Word} : (∃ i, decode c = .ok i) ↔ LegalWord c := by
  constructor
  · rintro ⟨i, hi⟩
    obtain ⟨hlegal, -⟩ := encode_legal i
    rwa [(decodeAndEncodeAgree c i).mp hi]
  · rintro ⟨hop, hrsv, harg, hkind⟩
    obtain ⟨i, hi⟩ := exists_instr_of_op hop
    unfold argClear at harg
    unfold kindLegal at hkind
    rw [← hi] at harg hkind
    obtain ⟨j, hj, hja⟩ := exists_instr_of_arg i harg hkind
    exact ⟨j, decode_eq_ok_iff.mpr ⟨hrsv, hja.symm, by rw [hj, hi]⟩⟩

/-! ## The rows of the opcode table -/

/-- The OP of a row's pattern. -/
abbrev OpcodeRow.op (r : OpcodeRow) : BitVec 8 := opOf r.pattern

/-- A row fixes OP, RSV and the ARG bits that 30_encoding.md R91 says must be 0; all but OP are 0. -/
theorem opcodeRow_fields : ∀ r ∈ opcodeRows, r.op ∈ assignedOps ∧ r.pattern = 0#48 ++ 0#8 ++ r.op ∧
    rsvOf r.mask = BitVec.allOnes 48 ∧ argOf r.mask = argMustBeZero r.op ∧ opOf r.mask = BitVec.allOnes 8 := by
  decide

theorem opcodeRows_op_inj {r q : OpcodeRow} (hr : r ∈ opcodeRows) (hq : q ∈ opcodeRows) (h : r.op = q.op) : r = q :=
  List.inj_on_of_nodup_map (f := OpcodeRow.op) (by decide) hr hq h

theorem opcodeRows_mnemonic_inj {r q : OpcodeRow} (hr : r ∈ opcodeRows) (hq : q ∈ opcodeRows)
    (h : r.mnemonic = q.mnemonic) : r = q :=
  List.inj_on_of_nodup_map (f := OpcodeRow.mnemonic) (by decide) hr hq h

/-- Every command has its row, by its OP and its mnemonic (30_encoding.md R92). -/
theorem exists_row_of_instr (i : Instr) : ∃ r ∈ opcodeRows, r.op = i.op ∧ r.mnemonic = i.mnemonic := by
  cases i with
  | pwmUpdate force => exact ⟨opcodeRows[1], List.getElem_mem _, rfl, rfl⟩
  | ddsSetWaveform k => exact ⟨opcodeRows[6], List.getElem_mem _, rfl, rfl⟩
  | _ => decide

theorem op_eq_iff_mnemonic_eq {i j : Instr} : i.op = j.op ↔ i.mnemonic = j.mnemonic := by
  obtain ⟨r, hr, hrop, hrm⟩ := exists_row_of_instr i
  obtain ⟨q, hq, hqop, hqm⟩ := exists_row_of_instr j
  rw [← hrop, ← hqop, ← hrm, ← hqm]
  constructor <;> intro h
  · rw [opcodeRows_op_inj hr hq h]
  · rw [opcodeRows_mnemonic_inj hr hq h]

/-- A word matches a row exactly when it has the row's OP and meets R93.2 and R93.3. -/
theorem matches_iff {r : OpcodeRow} (hr : r ∈ opcodeRows) {c : Word} :
    r.Matches c ↔ opOf c = r.op ∧ rsvClear c ∧ argClear c := by
  obtain ⟨-, hpattern, hrsv, harg, hop⟩ := opcodeRow_fields r hr
  rw [OpcodeRow.Matches, hpattern, eq_fields_iff, rsvOf_and, argOf_and, opOf_and, hrsv, harg, hop,
    BitVec.and_allOnes, BitVec.and_allOnes]
  unfold argClear
  constructor
  · rintro ⟨hrsv0, harg0, heq⟩
    exact ⟨heq, hrsv0, heq.symm ▸ harg0⟩
  · rintro ⟨heq, hrsv0, harg0⟩
    exact ⟨hrsv0, heq ▸ harg0, heq⟩

/-- Settles O2: a legal word has the fields of some command, and OP and mnemonic name the same row of the table. -/
theorem decodeAcceptsExactlyLegalWords : Obligations.DecodeAcceptsExactlyLegalWords := by
  unfold Obligations.DecodeAcceptsExactlyLegalWords
  refine ⟨fun c => exists_decode_iff_legalWord, fun c d i j hc hd => ?_⟩
  obtain ⟨-, -, hcop⟩ := decode_eq_ok_iff.mp hc
  obtain ⟨-, -, hdop⟩ := decode_eq_ok_iff.mp hd
  rw [hcop, hdop, op_eq_iff_mnemonic_eq]

/-- The one word that meets R93.1 to R93.3 and not R93.4 is 0x0312. -/
theorem eq_kindThree_word {c : Word} (hrsv : rsvClear c) (harg : argClear c) (hkind : ¬ kindLegal c) :
    c = 0x0312#64 := by
  obtain ⟨hop, h3⟩ := not_not.mp hkind
  unfold argClear at harg
  rw [hop] at harg
  have hz : (argOf c).extractLsb' 2 6 = 0#6 := and_upper_eq_zero_iff.mp harg
  have harg3 : argOf c = 0x03#8 := (eq_append_iff (m := 6) (n := 2)).mpr ⟨hz, h3⟩
  exact eq_fields_iff.mpr ⟨hrsv, harg3, hop⟩

/-- Settles O3: to match a row is to have its OP and to meet R93.2 and R93.3, so a word has at most one row, and only
R93.4 separates matching from decoding. -/
theorem opcodeRowsMatchDecoder : Obligations.OpcodeRowsMatchDecoder := by
  unfold Obligations.OpcodeRowsMatchDecoder
  refine ⟨fun c r q hr hq hrc hqc => ?_, fun c i hi => ?_, fun c r hr hrc hne => ?_⟩
  · obtain ⟨hrop, -⟩ := (matches_iff hr).mp hrc
    obtain ⟨hqop, -⟩ := (matches_iff hq).mp hqc
    exact opcodeRows_op_inj hr hq (hrop.symm.trans hqop)
  · obtain ⟨r, hr, hrop, hrm⟩ := exists_row_of_instr i
    obtain ⟨-, hrsv, harg, -⟩ := exists_decode_iff_legalWord.mp ⟨i, hi⟩
    obtain ⟨-, -, hop⟩ := decode_eq_ok_iff.mp hi
    exact ⟨r, hr, (matches_iff hr).mpr ⟨hop.trans hrop.symm, hrsv, harg⟩, hrm⟩
  · obtain ⟨hop, hrsv, harg⟩ := (matches_iff hr).mp hrc
    obtain ⟨hassigned, -⟩ := opcodeRow_fields r hr
    have hkind : kindLegal c := by_contra fun h => hne (eq_kindThree_word hrsv harg h)
    obtain ⟨i, hi⟩ := exists_decode_iff_legalWord.mpr ⟨by rwa [opAssigned, hop], hrsv, harg, hkind⟩
    obtain ⟨q, hq, hqop, hqm⟩ := exists_row_of_instr i
    obtain ⟨-, -, hiop⟩ := decode_eq_ok_iff.mp hi
    have hqr : q = r := opcodeRows_op_inj hq hr (by rw [hqop, ← hiop, hop])
    exact ⟨i, hi, by rw [← hqm, hqr]⟩

end Sys2Proof

/-! PROOF. What a write to CMD executes (40_dispatch.md R120 to R122). Settles O6, O7 and O25. -/

namespace Sys2Proof.Machine

/-- An 8-byte HOST write to CMD is dispatch of the word written (20_memory.md R64, 40_dispatch.md R120). -/
theorem step_dispatch {s : State} {addr : HostAddr} {c : Word} {rest : List Stimulus}
    (hp : s.pending = .write addr 8 c :: rest) (ha : addr.offset? s.cfg = some 0) :
    step s = dispatch c { s with pending := rest } := by
  rw [step_memWrite hp ha rfl, memWrite, regAt_eq_cmd.mpr rfl]

theorem dispatch_of_decode {c : Word} {i : Instr} (hi : decode c = .ok i) (s : State) : dispatch c s = exec i s := by
  rw [dispatch, hi]

/-- A word that meets a condition of 30_encoding.md R93 decodes to no command, so it raises IllegalCommand. -/
theorem dispatch_of_not_legalWord {c : Word} (hc : ¬ LegalWord c) (s : State) :
    dispatch c s = .next (raiseIllegalCommand (c.extractLsb' 0 8) s) := by
  unfold dispatch
  split
  case h_1 i hi => exact absurd (exists_decode_iff_legalWord.mp ⟨i, hi⟩) hc
  case h_2 => rfl

/-- Settles O7: the whole effect is raise IllegalCommand, which writes its two STATUS fields. -/
theorem illegalCommandChangesStatusOnly : Obligations.IllegalCommandChangesStatusOnly := fun s _ c rest hp ha hc =>
  calc step s
    _ = dispatch c { s with pending := rest } := step_dispatch hp ha
    _ = .next (raiseIllegalCommand (c.extractLsb' 0 8) { s with pending := rest }) := dispatch_of_not_legalWord hc _

/-- Settles O6: the write is dispatch of its word, and dispatch runs the command the word decodes to. -/
theorem stepRunsDecodedCommand : Obligations.StepRunsDecodedCommand := fun s _ c rest i hp ha hi =>
  calc step s
    _ = dispatch c { s with pending := rest } := step_dispatch hp ha
    _ = exec i { s with pending := rest } := dispatch_of_decode hi _

/-- Settles O25: NOP's arm answers its argument. -/
theorem nopChangesNothing : Obligations.NopChangesNothing := fun _ => rfl

end Sys2Proof.Machine

/-! PROOF. The branch a PWM_UPDATE takes and its effect field by field; PWM_RUN and PWM_STOP (41_pwm.md R130, R131,
R143, R144). Settles O27, O28 and O36. -/

namespace Sys2Proof.Machine

/-! ## PWM_RUN and PWM_STOP -/

theorem setRunning_of_running_eq {b : Bool} {s : State} (h : s.pwm.running = b) : setRunning b s = s := if_pos h

theorem setRunning_of_running_ne {b : Bool} {s : State} (h : s.pwm.running ≠ b) :
    setRunning b s = { s with pwm := { s.pwm with running := b }, events := s.events ++ [.enable b] } := if_neg h

/-- Settles O27: both commands are setRunning, which acts where RUNNING differs from the value wanted. -/
theorem runAndStopGateTheCounter : Obligations.RunAndStopGateTheCounter := fun _ =>
  ⟨fun h => congrArg _ (setRunning_of_running_ne (by simp [h])), fun h => congrArg _ (setRunning_of_running_eq h),
    fun h => congrArg _ (setRunning_of_running_ne (by simp [h])), fun h => congrArg _ (setRunning_of_running_eq h)⟩

/-! ## The branch taken -/

theorem selectBranch_freq {force : Bool} {p : Pwm} (h : force = true ∨ p.req.freq ≠ p.prev.freq) :
    selectBranch force p = .freq := if_pos h

theorem selectBranch_duty {p : Pwm} (hfreq : p.req.freq = p.prev.freq) (hduty : p.req.duty ≠ p.prev.duty) :
    selectBranch false p = .duty := by
  simp [selectBranch, hfreq, hduty]

theorem selectBranch_high {p : Pwm} (hfreq : p.req.freq = p.prev.freq) (hduty : p.req.duty = p.prev.duty)
    (hth : p.req.th ≠ p.prev.th) : selectBranch false p = .high := by
  simp [selectBranch, hfreq, hduty, hth]

theorem selectBranch_low {p : Pwm} (hfreq : p.req.freq = p.prev.freq) (hduty : p.req.duty = p.prev.duty)
    (hth : p.req.th = p.prev.th) (htl : p.req.tl ≠ p.prev.tl) : selectBranch false p = .low := by
  simp [selectBranch, hfreq, hduty, hth, htl]

/-! ## PWM_UPDATE, field by field -/

@[simp] theorem updatedPwm_linked (force : Bool) (cfg : Params) (p : Pwm) :
    (updatedPwm force cfg p).linked = p.linked := by
  unfold updatedPwm
  split <;> rfl

@[simp] theorem updatedPwm_running (force : Bool) (cfg : Params) (p : Pwm) :
    (updatedPwm force cfg p).running = p.running := by
  unfold updatedPwm
  split <;> rfl

/-- The counts a pass leaves are those of the branch taken; NONE leaves the counts held (41_pwm.md R130). -/
@[simp] theorem updatedPwm_regs (force : Bool) (cfg : Params) (p : Pwm) :
    (updatedPwm force cfg p).regs = branchCounts (selectBranch force p) cfg.clk.toNat p := by
  unfold updatedPwm
  split
  case isTrue h => rw [h]; rfl
  case isFalse => rfl

theorem updatedPwm_of_branch {force : Bool} {p : Pwm} (hb : selectBranch force p ≠ .none) (cfg : Params) :
    updatedPwm force cfg p =
      { reconcile (selectBranch force p) cfg p with committed := (updatedPwm force cfg p).regs } := by
  rw [updatedPwm_regs, updatedPwm, if_neg hb]

@[simp] theorem pwmUpdate_lastBranch (force : Bool) (s : State) :
    (pwmUpdate force s).status.lastBranch = selectBranch force s.pwm := by rw [pwmUpdate_eq]

@[simp] theorem pwmUpdate_pwm (force : Bool) (s : State) :
    (pwmUpdate force s).pwm = updatedPwm force s.cfg s.pwm := by rw [pwmUpdate_eq]

@[simp] theorem pwmUpdate_events (force : Bool) (s : State) :
    (pwmUpdate force s).events = s.events ++ updateEvents force s.cfg s.pwm := by rw [pwmUpdate_eq]

/-- A pass that finds no edit changes LAST_BRANCH only (41_pwm.md R131). -/
theorem pwmUpdate_of_no_edit {s : State} (h : s.pwm.req = s.pwm.prev) :
    pwmUpdate false s = { s with status := { s.status with lastBranch := .none } } := by
  rw [pwmUpdate, selectBranch_of_no_edit h]
  rfl

/-- Settles O28: LAST_BRANCH is what select_branch answers, which tests the fields in the order of R131. -/
theorem pwmUpdateTakesFirstEditedField : Obligations.PwmUpdateTakesFirstEditedField := by
  unfold Obligations.PwmUpdateTakesFirstEditedField
  intro s force
  refine ⟨pwmUpdate force s, rfl, ?freq, ?later⟩
  case freq => exact fun h => (pwmUpdate_lastBranch force s).trans (selectBranch_freq h)
  case later =>
    rintro rfl hfreq
    rw [pwmUpdate_lastBranch]
    refine ⟨selectBranch_duty hfreq, fun hduty => ⟨selectBranch_high hfreq hduty, fun hth =>
      ⟨selectBranch_low hfreq hduty hth, fun htl => pwmUpdate_of_no_edit ?_⟩⟩⟩
    calc s.pwm.req
      _ = ⟨s.pwm.req.freq, s.pwm.req.duty, s.pwm.req.th, s.pwm.req.tl⟩ := rfl
      _ = s.pwm.prev := by rw [hfreq, hduty, hth, htl]

/-! ## What the three commands leave unchanged -/

/-- What each of PWM_UPDATE, PWM_RUN and PWM_STOP keeps from s to t: all but LAST_BRANCH, the PWM registers and RUNNING;
the history only grows. -/
structure PwmCommandKeeps (s t : State) : Prop where
  status   : t.status = { s.status with lastBranch := t.status.lastBranch }
  lock     : t.lock = s.lock
  dds      : t.dds = s.dds
  envHolds : t.envHolds = s.envHolds
  cfg      : t.cfg = s.cfg
  pending  : t.pending = s.pending
  readBack : t.readBack = s.readBack
  linked   : t.pwm.linked = s.pwm.linked
  events   : s.events <+: t.events

theorem pwmUpdate_keeps (force : Bool) (s : State) : PwmCommandKeeps s (pwmUpdate force s) := by
  rw [pwmUpdate_eq]
  exact ⟨rfl, rfl, rfl, rfl, rfl, rfl, rfl, updatedPwm_linked _ _ _, _, rfl⟩

theorem setRunning_keeps (b : Bool) (s : State) : PwmCommandKeeps s (setRunning b s) := by
  obtain ⟨_, h⟩ | ⟨_, h⟩ := setRunning_cases b s <;> rw [h]
  · exact ⟨rfl, rfl, rfl, rfl, rfl, rfl, rfl, rfl, [], List.append_nil _⟩
  · exact ⟨rfl, rfl, rfl, rfl, rfl, rfl, rfl, rfl, _, rfl⟩

/-- PWM_RUN and PWM_STOP change no register but RUNNING (41_pwm.md R143, R144). -/
theorem setRunning_registers (b : Bool) (s : State) :
    (setRunning b s).status = s.status ∧
      (setRunning b s).pwm = { s.pwm with running := (setRunning b s).pwm.running } := by
  obtain ⟨_, h⟩ | ⟨_, h⟩ := setRunning_cases b s <;> rw [h] <;> exact ⟨rfl, rfl⟩

/-- The registers at offset 0 and from 0x090 are read from the parameters and the DDS channel (10_state.md R21). -/
theorem readReg_eq_of_cfg_dds_eq {s t : State} (hcfg : t.cfg = s.cfg) (hdds : t.dds = s.dds) {r : Reg}
    (hr : r.offset = 0x000 ∨ 0x090 ≤ r.offset) : readReg t r = readReg s r := by
  revert hr
  cases r <;> simp [Reg.offset, readReg, hcfg, hdds]

theorem memRead_eq_of_cfg_dds_eq {s t : State} (hcfg : t.cfg = s.cfg) (hdds : t.dds = s.dds) {off : Nat}
    (hoff : off = 0x000 ∨ 0x090 ≤ off) : memRead t off = memRead s off := by
  cases h : regAt off with
  | none => rw [memRead_of_regAt_none t h, memRead_of_regAt_none s h]
  | some r =>
    obtain rfl := offset_of_regAt h
    rw [memRead_offset, memRead_offset, readReg_eq_of_cfg_dds_eq hcfg hdds hoff]

/-- Settles O36: PWM_UPDATE changes one field of STATUS, the PWM engine and the history, PWM_RUN and PWM_STOP change
RUNNING and the history. -/
theorem pwmCommandsFrame : Obligations.PwmCommandsFrame := by
  unfold Obligations.PwmCommandsFrame
  intro s t i hi h
  have hkeeps : PwmCommandKeeps s t := by
    obtain rfl | rfl | rfl | rfl := hi <;> cases h
    · exact pwmUpdate_keeps false s
    · exact pwmUpdate_keeps true s
    · exact setRunning_keeps true s
    · exact setRunning_keeps false s
  refine ⟨hkeeps.status, hkeeps.lock, hkeeps.dds, hkeeps.envHolds, hkeeps.cfg, hkeeps.pending, hkeeps.readBack,
    hkeeps.linked, ?gate, ?update, hkeeps.events, fun off => memRead_eq_of_cfg_dds_eq hkeeps.cfg hkeeps.dds⟩
  case gate => rintro (rfl | rfl) <;> cases h <;> exact setRunning_registers _ s
  case update => rintro (rfl | rfl) <;> cases h <;> simp

end Sys2Proof.Machine

/-! PROOF. The counts each branch of PWM_UPDATE leaves (41_pwm.md R132 to R138, R145). Settles O29 to O32 and O37 to
O39. -/

namespace Sys2Proof.Machine

/-- The counts of a pass whose branch is known. -/
theorem pwmUpdate_regs {force : Bool} {s : State} {b : Branch} (h : selectBranch force s.pwm = b) :
    (pwmUpdate force s).pwm.regs = branchCounts b s.cfg.clk.toNat s.pwm := by
  rw [pwmUpdate_pwm, updatedPwm_regs, h]

/-! ## The frequency branch and the duty branch -/

/-- The period that the frequency branch leaves: the clamped rounded period of the request, nudged (41_pwm.md R132,
R133). -/
def freqPeriod (clk : Nat) (p : Pwm) : Nat :=
  nudgePeriod (periodOf clk p.req.freq.toNat) p.req.freq.toNat p.prev.freq.toNat p.regs.period.toNat

theorem branchCounts_freq (clk : Nat) (p : Pwm) :
    branchCounts .freq clk p = applyDuty (freqPeriod clk p) p.req.duty.toNat := rfl

theorem freqPeriod_bounds (clk : Nat) (p : Pwm) : 1 ≤ freqPeriod clk p ∧ freqPeriod clk p ≤ regMax := by
  obtain ⟨hpos, hmax⟩ := periodOf_bounds clk p.req.freq.toNat
  exact nudgePeriod_bounds hpos hmax

theorem freqBranch_period (clk : Nat) (p : Pwm) : (branchCounts .freq clk p).period.toNat = freqPeriod clk p :=
  (applyDuty_spec (freqPeriod_bounds clk p).2).1

theorem dutyBranch_period (clk : Nat) (p : Pwm) : (branchCounts .duty clk p).period = p.regs.period :=
  BitVec.eq_of_toNat_eq (applyDuty_spec (count_le_regMax p.regs.period)).1

/-- The high count is the rounded share `duty` of the period, the low count the rest (41_pwm.md R134). -/
structure SplitByDuty (r : Counts) (duty : Nat) : Prop where
  high    : r.high.toNat = rdiv (r.period.toNat * min duty 1000) 1000
  low     : r.low.toNat = r.period.toNat - r.high.toNat
  high_le : r.high.toNat ≤ r.period.toNat

theorem applyDuty_splitByDuty {period : Nat} (hp : period ≤ regMax) (duty : Nat) :
    SplitByDuty (applyDuty period duty) duty := by
  obtain ⟨hperiod, hhigh, hlow, hle⟩ := applyDuty_spec (d := duty) hp
  constructor
  · rw [hhigh, hperiod]
  · rw [hlow, hhigh, hperiod]
  · rwa [hhigh, hperiod]

/-- Both branches that use apply_duty split their period by the duty request. -/
theorem branchCounts_splitByDuty {b : Branch} (hb : b = .freq ∨ b = .duty) (clk : Nat) (p : Pwm) :
    SplitByDuty (branchCounts b clk p) p.req.duty.toNat := by
  obtain rfl | rfl := hb
  · exact applyDuty_splitByDuty (freqPeriod_bounds clk p).2 _
  · exact applyDuty_splitByDuty (count_le_regMax p.regs.period) _

/-- After a pass whose LAST_BRANCH is FREQ or DUTY the counts are split by the duty request. -/
theorem pwmUpdate_splitByDuty {force : Bool} {s : State}
    (h : (pwmUpdate force s).status.lastBranch = .freq ∨ (pwmUpdate force s).status.lastBranch = .duty) :
    SplitByDuty (pwmUpdate force s).pwm.regs s.pwm.req.duty.toNat := by
  rw [pwmUpdate_lastBranch] at h
  rw [pwmUpdate_regs rfl]
  exact branchCounts_splitByDuty h _ _

/-- Settles O29: the period is freqPeriod, which is what R132 and R133 compute, and apply_duty splits it. -/
theorem freqBranchDerivesTheRegisters : Obligations.FreqBranchDerivesTheRegisters := by
  unfold Obligations.FreqBranchDerivesTheRegisters
  rintro s force f pc p hfreq rfl rfl hp
  have hp : p = freqPeriod s.cfg.clk.toNat s.pwm := hp
  have hperiod := freqBranch_period s.cfg.clk.toNat s.pwm
  obtain ⟨hhigh, hlow, _⟩ := branchCounts_splitByDuty (.inl rfl) s.cfg.clk.toNat s.pwm
  refine ⟨pwmUpdate force s, rfl, ?_⟩
  rw [pwmUpdate_regs (selectBranch_freq hfreq), hp, ← hperiod]
  exact ⟨rfl, hhigh, hlow⟩

/-- Settles O30: both branches end in apply_duty, the duty branch on the period held. -/
theorem dutyBranchKeepsThePeriod : Obligations.DutyBranchKeepsThePeriod := by
  unfold Obligations.DutyBranchKeepsThePeriod
  constructor
  · intro s t force h hb
    cases h
    obtain ⟨hhigh, hlow, hle⟩ := pwmUpdate_splitByDuty hb
    exact ⟨hhigh, hlow, hle⟩
  · intro s hfreq hduty
    have hb := selectBranch_duty hfreq hduty
    refine ⟨pwmUpdate false s, rfl, (pwmUpdate_lastBranch false s).trans hb, ?_⟩
    rw [pwmUpdate_regs hb]
    exact dutyBranch_period _ _

/-! ## How near the frequency and the duty come to their requests -/

/-- A period that needs no clamp is the rounded quotient (41_pwm.md R132). -/
theorem periodOf_of_fits {clk f : Nat} (hf : 1 ≤ f) (h1 : 1 ≤ rdiv (10 * clk) f) (h2 : rdiv (10 * clk) f ≤ regMax) :
    periodOf clk f = rdiv (10 * clk) f := by
  rw [periodOf, if_neg (by omega), clamp_eq_self h1 h2]

/-- The nudge moves a period by at most one count (41_pwm.md R133). -/
theorem nudgePeriod_near {pc : Nat} (f freqPrev p0 : Nat) (h1 : 1 ≤ pc) (h2 : pc ≤ regMax) :
    nudgePeriod pc f freqPrev p0 ≤ pc + 1 ∧ pc ≤ nudgePeriod pc f freqPrev p0 + 1 := by
  unfold nudgePeriod
  split
  · split <;> omega
  · omega

theorem nudgePeriod_of_no_collapse {pc f freqPrev p0 : Nat} (h : f = freqPrev ∨ pc ≠ p0) :
    nudgePeriod pc f freqPrev p0 = pc := if_neg (by omega)

/-- A period within one count of the rounded quotient a / f is within 3/2 counts of a / f. -/
theorem near_of_near_rdiv {a f n : Nat} (hf : 0 < f) (h1 : n ≤ rdiv a f + 1) (h2 : rdiv a f ≤ n + 1) :
    2 * f * n ≤ 2 * a + 3 * f ∧ 2 * a ≤ 2 * f * n + 3 * f := by
  obtain ⟨hle, hlt⟩ := rdiv_nearest (a := a) hf
  have hupper : 2 * f * n ≤ 2 * f * (rdiv a f + 1) := Nat.mul_le_mul_left _ h1
  have hlower : 2 * f * rdiv a f ≤ 2 * f * (n + 1) := Nat.mul_le_mul_left _ h2
  rw [Nat.mul_succ] at hupper hlower
  omega

/-- Settles O38: rounding costs half a count and the nudge, where there is one, a whole one. -/
theorem freqBranchPeriodIsNearTheRequest : Obligations.FreqBranchPeriodIsNearTheRequest := by
  unfold Obligations.FreqBranchPeriodIsNearTheRequest
  rintro s force f p0 hfreq rfl rfl hf h1 h2
  refine ⟨pwmUpdate force s, rfl, ?_⟩
  rw [pwmUpdate_regs (selectBranch_freq hfreq), freqBranch_period, freqPeriod, periodOf_of_fits hf h1 h2]
  obtain ⟨hupper, hlower⟩ := nudgePeriod_near s.pwm.req.freq.toNat s.pwm.prev.freq.toNat s.pwm.regs.period.toNat h1 h2
  obtain ⟨hle, hge⟩ := near_of_near_rdiv hf hupper hlower
  refine ⟨by omega, by omega, fun hexact => ?_⟩
  rw [nudgePeriod_of_no_collapse (hexact.imp_left (congrArg BitVec.toNat))]
  obtain ⟨hle, hlt⟩ := rdiv_nearest (a := 10 * s.cfg.clk.toNat) hf
  omega

/-- Settles O39: the high count is a rounded quotient by 1000, so within half of the exact share. -/
theorem dutyShareIsNearTheRequest : Obligations.DutyShareIsNearTheRequest := by
  unfold Obligations.DutyShareIsNearTheRequest
  intro s t force h hb hduty
  cases h
  have hhigh := (pwmUpdate_splitByDuty hb).high
  rw [Nat.min_eq_left hduty] at hhigh
  obtain ⟨hle, hlt⟩ := rdiv_nearest
    (a := (pwmUpdate force s).pwm.regs.period.toNat * s.pwm.req.duty.toNat) (b := 1000) (by omega)
  rw [← hhigh, ← Nat.mul_assoc] at hle hlt
  omega

/-! ## The high-time branch and the low-time branch -/

/-- The count of the requested high time, nudged (41_pwm.md R135). -/
def highCount (clk : Nat) (p : Pwm) : Nat :=
  nudgeCount (countOfTime clk p.req.th.toNat) p.req.th.toNat p.prev.th.toNat p.regs.high.toNat

/-- The count of the requested low time, nudged (41_pwm.md R136). -/
def lowCount (clk : Nat) (p : Pwm) : Nat :=
  nudgeCount (countOfTime clk p.req.tl.toNat) p.req.tl.toNat p.prev.tl.toNat p.regs.low.toNat

theorem branchCounts_high_linked {p : Pwm} (h : p.linked = true) (clk : Nat) :
    branchCounts .high clk p = linkedSetHigh p.regs (highCount clk p) := if_pos h

theorem branchCounts_high_unlinked {p : Pwm} (h : p.linked = false) (clk : Nat) :
    branchCounts .high clk p = unlinkedSetHigh p.regs (highCount clk p) := if_neg (by simp [h])

theorem branchCounts_low_linked {p : Pwm} (h : p.linked = true) (clk : Nat) :
    branchCounts .low clk p = linkedSetLow p.regs (lowCount clk p) := if_pos h

theorem branchCounts_low_unlinked {p : Pwm} (h : p.linked = false) (clk : Nat) :
    branchCounts .low clk p = unlinkedSetLow p.regs (lowCount clk p) := if_neg (by simp [h])

/-- Settles O31: c is highCount, and the branch is linked_set or unlinked_set of it by the mode. -/
theorem highBranchEditsTheHighCount : Obligations.HighBranchEditsTheHighCount := by
  unfold Obligations.HighBranchEditsTheHighCount
  rintro s c0 c h hfreq hduty hth rfl hc rfl
  have hc : c = highCount s.cfg.clk.toNat s.pwm := hc
  refine ⟨pwmUpdate false s, rfl, ?_⟩
  rw [pwmUpdate_regs (selectBranch_high hfreq hduty hth), hc]
  refine ⟨fun hlinked => ?_, fun hlinked => ?_⟩
  · obtain ⟨hperiod, hhigh, hlow⟩ := linkedSetHigh_spec s.pwm.regs (highCount s.cfg.clk.toNat s.pwm)
    rw [branchCounts_high_linked hlinked]
    exact ⟨hperiod, hhigh, by rw [hlow, hhigh]⟩
  · obtain ⟨hlow, hhigh, hperiod⟩ := unlinkedSetHigh_spec s.pwm.regs (highCount s.cfg.clk.toNat s.pwm)
    rw [branchCounts_high_unlinked hlinked]
    exact ⟨hlow, hhigh, by rw [hperiod, hhigh, hlow]⟩

/-- Settles O32: c is lowCount, and the branch is linked_set or unlinked_set of it by the mode. -/
theorem lowBranchEditsTheLowCount : Obligations.LowBranchEditsTheLowCount := by
  unfold Obligations.LowBranchEditsTheLowCount
  rintro s c0 c l hfreq hduty hth htl rfl hc rfl
  have hc : c = lowCount s.cfg.clk.toNat s.pwm := hc
  refine ⟨pwmUpdate false s, rfl, ?_⟩
  rw [pwmUpdate_regs (selectBranch_low hfreq hduty hth htl), hc]
  refine ⟨fun hlinked => ?_, fun hlinked => ?_⟩
  · obtain ⟨hperiod, hlow, hhigh⟩ := linkedSetLow_spec s.pwm.regs (lowCount s.cfg.clk.toNat s.pwm)
    rw [branchCounts_low_linked hlinked]
    exact ⟨hperiod, hlow, by rw [hhigh, hlow]⟩
  · obtain ⟨hhigh, hlow, hperiod⟩ := unlinkedSetLow_spec s.pwm.regs (lowCount s.cfg.clk.toNat s.pwm)
    rw [branchCounts_low_unlinked hlinked]
    exact ⟨hhigh, hlow, by rw [hperiod, hhigh, hlow, Nat.add_comm]⟩

/-! ## The period -/

/-- In linked mode an edit of a time keeps the period (41_pwm.md R137, R145.4). -/
theorem timeBranch_period_of_linked {b : Branch} (hb : b = .high ∨ b = .low) {p : Pwm} (h : p.linked = true)
    (clk : Nat) : (branchCounts b clk p).period = p.regs.period := by
  obtain rfl | rfl := hb
  · rw [branchCounts_high_linked h]
    exact (linkedSetHigh_spec p.regs _).1
  · rw [branchCounts_low_linked h]
    exact (linkedSetLow_spec p.regs _).1

/-- In unlinked mode an edit of a time leaves a period of at least 1 (41_pwm.md R138, R145.3). -/
theorem one_le_timeBranch_period_of_unlinked {b : Branch} (hb : b = .high ∨ b = .low) {p : Pwm}
    (h : p.linked = false) (clk : Nat) : 1 ≤ (branchCounts b clk p).period.toNat := by
  obtain rfl | rfl := hb
  · obtain ⟨_, _, hperiod⟩ := unlinkedSetHigh_spec p.regs (highCount clk p)
    rw [branchCounts_high_unlinked h, hperiod]
    exact (unlinkedEdit_bounds (count_le_regMax p.regs.low)).1
  · obtain ⟨_, _, hperiod⟩ := unlinkedSetLow_spec p.regs (lowCount clk p)
    rw [branchCounts_low_unlinked h, hperiod]
    exact (unlinkedEdit_bounds (count_le_regMax p.regs.high)).1

/-- Settles O37: each clause is the law of the branch it names. -/
theorem passLeavesCountsThatAddUp : Obligations.PassLeavesCountsThatAddUp := by
  unfold Obligations.PassLeavesCountsThatAddUp
  intro s t force h hb
  cases h
  rw [pwmUpdate_lastBranch] at hb ⊢
  rw [pwmUpdate_regs rfl]
  refine ⟨branchCounts_sum _ _ hb, fun hfreq => ?_, fun hmode htime => ?_, fun hduty => ?_, fun hmode htime => ?_⟩
  · rw [hfreq, freqBranch_period]
    exact (freqPeriod_bounds _ _).1
  · exact one_le_timeBranch_period_of_unlinked htime hmode _
  · rw [hduty, dutyBranch_period]
  · exact timeBranch_period_of_linked htime hmode _

end Sys2Proof.Machine

/-! PROOF. What PWM_UPDATE does after its branch: the snapshot, the resolution and the commit (41_pwm.md R139 to R142).
Settles O33, O34, O35 and O40. -/

namespace Sys2Proof.Machine

/-- The snapshots after a pass that takes a branch are derived from the registers it leaves (41_pwm.md R139, R140). -/
theorem pwmUpdate_prev {force : Bool} {s : State} (hb : selectBranch force s.pwm ≠ .none) :
    (pwmUpdate force s).pwm.prev = derivedRequests s.cfg.clk.toNat (pwmUpdate force s).pwm.regs := by
  rw [pwmUpdate_pwm, updatedPwm_of_branch hb]
  rfl

/-- WRITEBACK stores the snapshots in the requests too, PREV_ONLY keeps the requests (41_pwm.md R140). -/
theorem pwmUpdate_req {force : Bool} {s : State} (hb : selectBranch force s.pwm ≠ .none) :
    (pwmUpdate force s).pwm.req =
      if s.cfg.snapshotMode = .writeback then (pwmUpdate force s).pwm.prev else s.pwm.req := by
  rw [pwmUpdate_pwm, updatedPwm_of_branch hb]
  rfl

theorem pwmUpdate_resBits_toNat {force : Bool} {s : State} (hb : selectBranch force s.pwm ≠ .none) :
    (pwmUpdate force s).pwm.resBits.toNat = bitLength (pwmUpdate force s).pwm.regs.period.toNat := by
  rw [pwmUpdate_pwm, updatedPwm_of_branch hb]
  exact reconcile_resBits_toNat _ _ _

theorem pwmUpdate_committed {force : Bool} {s : State} (hb : selectBranch force s.pwm ≠ .none) :
    (pwmUpdate force s).pwm.committed = (pwmUpdate force s).pwm.regs := by
  rw [pwmUpdate_pwm, updatedPwm_of_branch hb]
  exact updatedPwm_regs _ _ _

/-- Settles O33: the snapshots are the derived values, which fit their registers. -/
theorem passStoresDerivedValues : Obligations.PassStoresDerivedValues := by
  unfold Obligations.PassStoresDerivedValues
  intro s t force h hb
  cases h
  rw [pwmUpdate_lastBranch] at hb
  obtain ⟨hfreq, hduty, hth, htl⟩ := derivedRequests_toNat s.cfg.clk (pwmUpdate force s).pwm.regs
  rw [← pwmUpdate_prev hb] at hfreq hduty hth htl
  refine ⟨hfreq, hduty, hth, htl, fun hmode => ?_, fun hmode => ?_⟩
  · rw [pwmUpdate_req hb, if_pos hmode]
  · rw [pwmUpdate_req hb, if_neg (by simp [hmode])]

/-- Settles O34: PWM_RES_BITS is the bit length, which brackets the period. -/
theorem passSetsResolutionBits : Obligations.PassSetsResolutionBits := by
  unfold Obligations.PassSetsResolutionBits
  intro s t force h hb
  cases h
  rw [pwmUpdate_lastBranch] at hb
  have hres := pwmUpdate_resBits_toNat hb
  constructor
  · intro hzero
    rw [hzero, bitLength_zero] at hres
    exact BitVec.eq_of_toNat_eq hres
  · intro hne
    obtain ⟨hpos, hlower, hupper⟩ := bitLength_bounds hne
    rw [hres]
    exact ⟨hpos, bitLength_le (BitVec.isLt _), hlower, hupper⟩

/-- Settles O35: the history grows by commitEvents of the registers left and the copies held, and the copies are then
written. -/
theorem passCommitsChangedRegisters : Obligations.PassCommitsChangedRegisters := by
  unfold Obligations.PassCommitsChangedRegisters
  intro s t force l h hb hl
  cases h
  rw [pwmUpdate_lastBranch] at hb
  have hl : l = commitList (pwmUpdate force s).pwm.regs s.pwm.committed := hl
  refine ⟨pwmUpdate_committed hb, ?_⟩
  rw [pwmUpdate_events, updateEvents, if_neg hb, commitEvents, hl, pwmUpdate_regs rfl]

/-- In WRITEBACK mode every pass leaves requests and snapshots equal: NONE finds them so, a branch stores them so
(41_pwm.md R131, R140). -/
theorem pwmUpdate_req_eq_prev {s : State} (hmode : s.cfg.snapshotMode = .writeback) (force : Bool) :
    (pwmUpdate force s).pwm.req = (pwmUpdate force s).pwm.prev := by
  by_cases hb : selectBranch force s.pwm = .none
  · rw [pwmUpdate_pwm, updatedPwm, if_pos hb]
    exact (selectBranch_none hb).2
  · rw [pwmUpdate_req hb, if_pos hmode]

/-- Settles O40: the first pass leaves nothing edited, so the second takes NONE. -/
theorem secondPassFindsNoEdit : Obligations.SecondPassFindsNoEdit := fun s force hmode =>
  ⟨pwmUpdate force s, rfl, congrArg _ (pwmUpdate_of_no_edit (pwmUpdate_req_eq_prev hmode force))⟩

end Sys2Proof.Machine

/-! PROOF. The six DDS commands: the lock bracket and the drop, each performed command as one change of the state, the
run state, the ping-pong pairs and the frame (42_dds.md R170 to R179). Settles O42 to O50. -/

namespace Sys2Proof.Machine

/-! ## A DDS command, dropped or performed -/

/-- The body of each DDS command (42_dds.md R172 to R177); no other command has one. -/
def ddsBodyOf : Instr → State → State
  | .ddsSetFreq => setFreqBody
  | .ddsSetPhase => setPhaseBody
  | .ddsSetWaveform k => setWaveformBody k
  | .ddsStop => stopBody
  | .ddsSuspend => suspendBody
  | .ddsResume => resumeBody
  | _ => id

theorem exec_eq_ddsCommand {i : Instr} (hi : i.IsDds) (s : State) : exec i s = .next (ddsCommand (ddsBodyOf i) s) := by
  cases i with
  | ddsSetFreq | ddsSetPhase | ddsSetWaveform _ | ddsStop | ddsSuspend | ddsResume => rfl
  | _ => exact hi.elim

theorem isDdsBody_ddsBodyOf {i : Instr} (hi : i.IsDds) : IsDdsBody (ddsBodyOf i) := by
  cases i with
  | ddsSetFreq => exact .setFreq
  | ddsSetPhase => exact .setPhase
  | ddsSetWaveform k => exact .setWaveform k
  | ddsStop => exact .stop
  | ddsSuspend => exact .suspend
  | ddsResume => exact .resume
  | _ => exact hi.elim

/-- A body neither reads nor writes STATUS and the lock. -/
theorem IsDdsBody.withStatusLock {body : State → State} (h : IsDdsBody body) (s : State) (st : Status) (b : Bool) :
    body { s with status := st, lock := b } = { body s with status := st, lock := b } := by
  cases h <;> rfl

theorem exec_dds_dropped {i : Instr} (hi : i.IsDds) {s : State} (hl : s.lock = true) :
    exec i s = .next { s with status := { s.status with ddsDone := false } } := by
  rw [exec_eq_ddsCommand hi, ddsCommand_dropped hl]

/-- A performed command is its body with DDS_DONE set; it gives back the lock it takes (42_dds.md R170). -/
theorem exec_dds_performed {i : Instr} (hi : i.IsDds) {s : State} (hl : s.lock = false) :
    exec i s = .next { ddsBodyOf i s with status := { s.status with ddsDone := true }, lock := s.lock } := by
  rw [exec_eq_ddsCommand hi, ddsCommand_performed hl, (isDdsBody_ddsBodyOf hi).withStatusLock s s.status true,
    hl]
  rfl

/-- Settles O42: the bracket answers the drop before any body runs. -/
theorem heldLockDropsDdsCommands : Obligations.HeldLockDropsDdsCommands := fun _ _ hi hl => exec_dds_dropped hi hl

/-- Settles O50: the drop leaves only DDS_DONE behind, which no body reads and every performed command overwrites. -/
theorem retryAfterDropIsExact : Obligations.RetryAfterDropIsExact := by
  unfold Obligations.RetryAfterDropIsExact
  intro s i hi hl
  have hbody := isDdsBody_ddsBodyOf hi
  refine ⟨_, exec_dds_dropped hi hl, ?_⟩
  rw [exec_dds_performed hi rfl, exec_dds_performed hi rfl, hbody.withStatusLock s _ false,
    hbody.withStatusLock s s.status false]

/-! ## Each command performed -/

/-- Settles O43: the two values of FSELECT name the two idle registers; the request is clamped to the limits of the
kind held. -/
theorem setFreqLoadsTheIdleRegister : Obligations.SetFreqLoadsTheIdleRegister := by
  unfold Obligations.SetFreqLoadsTheIdleRegister
  intro s l v hdc htriangle hsine hv
  have hlimits : l = kindLimits s.cfg s.dds.kind := by
    cases hk : s.dds.kind with
    | dc => exact hdc hk
    | triangle => exact htriangle hk
    | sine => exact hsine hk
  obtain rfl : v = clampedFreq s.cfg s.dds :=
    BitVec.eq_of_toNat_eq (by rw [hv, hlimits, clampedFreq_toNat, clamp])
  refine ⟨fun hl hsel => ?_, fun hl hsel => ?_, exec_dds_dropped (i := .ddsSetFreq) trivial⟩ <;>
    rw [exec_dds_performed (i := .ddsSetFreq) trivial hl, ddsBodyOf, setFreqBody_eq, fselect, hsel] <;> rfl

/-- Settles O44: the two values of PSELECT name the two idle registers. -/
theorem setPhaseLoadsTheIdleRegister : Obligations.SetPhaseLoadsTheIdleRegister := by
  unfold Obligations.SetPhaseLoadsTheIdleRegister
  intro s hl
  refine ⟨fun hsel => ?_, fun hsel => ?_⟩ <;>
    rw [exec_dds_performed (i := .ddsSetPhase) trivial hl, ddsBodyOf, setPhaseBody_eq, pselect, hsel] <;> rfl

/-- Settles O45: MODE is set for every kind but SINE. -/
theorem setWaveformSetsModeAndKind : Obligations.SetWaveformSetsModeAndKind := by
  unfold Obligations.SetWaveformSetsModeAndKind
  intro s k ctrl hl hctrl
  have hmode : ctrl = setBit s.dds.ctrl bitMode (modeOf k) := by
    rw [hctrl]
    cases k <;> rfl
  rw [exec_dds_performed (i := .ddsSetWaveform k) trivial hl, ddsBodyOf, setWaveformBody_eq, hmode]

theorem setChipReset_setChipSleep_false (w : SerialWord) :
    setBit (setBit w bitReset false) bitSleep1 false = w &&& 0xFE7F := by
  rw [setChipReset_false, setChipSleep_false, BitVec.and_assoc]
  rfl

/-- Settles O46: each of the three bodies is one configuration word, stored and sent. -/
theorem runControlSetsResetAndSleep : Obligations.RunControlSetsResetAndSleep := by
  unfold Obligations.RunControlSetsResetAndSleep
  rintro s ctrl i hl (⟨rfl, rfl⟩ | ⟨rfl, rfl⟩ | ⟨rfl, rfl⟩)
  · rw [exec_dds_performed (i := .ddsStop) trivial hl, ddsBodyOf, stopBody_eq, setChipReset_true]
  · rw [exec_dds_performed (i := .ddsSuspend) trivial hl, ddsBodyOf, suspendBody_eq, setChipSleep_true]
  · rw [exec_dds_performed (i := .ddsResume) trivial hl, ddsBodyOf, resumeBody_eq, setChipReset_setChipSleep_false]

/-! ## The run state -/

@[simp] theorem runState_setFselect (w : SerialWord) (b : Bool) : runState (setBit w bitFselect b) = runState w := by
  simp [runState]
@[simp] theorem runState_setPselect (w : SerialWord) (b : Bool) : runState (setBit w bitPselect b) = runState w := by
  simp [runState]
@[simp] theorem runState_setChipMode (w : SerialWord) (b : Bool) : runState (setBit w bitMode b) = runState w := by
  simp [runState]
@[simp] theorem runState_setChipReset (w : SerialWord) : runState (setBit w bitReset true) = .stopped := by
  simp [runState]

/-- SLEEP1 suspends a channel that is not in RESET (42_dds.md R178). -/
theorem runState_setChipSleep (w : SerialWord) :
    runState (setBit w bitSleep1 true) = if runState w = .stopped then .stopped else .suspended := by
  cases hr : chipReset w <;> cases hs : chipSleep w <;> simp [runState, hr, hs]

theorem runState_clearBoth (w : SerialWord) :
    runState (setBit (setBit w bitReset false) bitSleep1 false) = .running := by
  simp [runState]

/-- Settles O47: only RESET and SLEEP1 count, and DDS_STOP, DDS_SUSPEND and DDS_RESUME alone write them. -/
theorem runStateFollowsTheTable : Obligations.RunStateFollowsTheTable := by
  unfold Obligations.RunStateFollowsTheTable
  intro s i hi hl
  refine ⟨_, exec_dds_performed hi hl, ?_⟩
  cases i with
  | ddsSetFreq => exact ⟨runState_setFselect _ _, fun _ => chipSleep_setFselect _ _⟩
  | ddsSetPhase => exact ⟨runState_setPselect _ _, fun _ => chipSleep_setPselect _ _⟩
  | ddsSetWaveform k => exact ⟨runState_setChipMode _ _, by simp⟩
  | ddsStop => exact ⟨runState_setChipReset _, fun _ => chipSleep_setChipReset _ _⟩
  | ddsSuspend =>
    refine ⟨(runState_setChipSleep s.dds.ctrl).trans ?_, by simp⟩
    cases runState s.dds.ctrl <;> rfl
  | ddsResume => exact ⟨runState_clearBoth _, by simp⟩
  | _ => exact hi.elim

/-! ## The ping-pong pairs -/

/-- From s to t the idle frequency register was loaded and made live (42_dds.md R172, R179). -/
structure FreqPingPong (s t : State) : Prop where
  flipped  : fselect t.dds.ctrl = !fselect s.dds.ctrl
  wasLive  : t.dds.freqShadow (fselect s.dds.ctrl) = s.dds.freqShadow (fselect s.dds.ctrl)
  nowLive  : t.dds.freqShadow (fselect t.dds.ctrl) = t.dds.freqPrev
  request  : t.dds.freq = t.dds.freqPrev

/-- From s to t the idle phase register was loaded and made live (42_dds.md R173, R179). -/
structure PhasePingPong (s t : State) : Prop where
  flipped  : pselect t.dds.ctrl = !pselect s.dds.ctrl
  wasLive  : t.dds.phaseShadow (pselect s.dds.ctrl) = s.dds.phaseShadow (pselect s.dds.ctrl)
  nowLive  : t.dds.phaseShadow (pselect t.dds.ctrl) = s.dds.phase

theorem exec_ddsSetFreq_pingPong {s : State} (hl : s.lock = false) :
    ∃ t, exec .ddsSetFreq s = .next t ∧ t.lock = false ∧ FreqPingPong s t := by
  refine ⟨_, exec_dds_performed (i := .ddsSetFreq) trivial hl, hl, ?_⟩
  rw [ddsBodyOf, setFreqBody_eq]
  constructor
  case flipped => exact fselect_setFselect _ _
  case wasLive => exact (freqShadow_setFreqShadow _ _ _ _).trans (if_neg (by simp))
  case nowLive =>
    rw [fselect_setFselect]
    exact (freqShadow_setFreqShadow _ _ _ _).trans (if_pos rfl)
  case request => rfl

theorem exec_ddsSetPhase_pingPong {s : State} (hl : s.lock = false) :
    ∃ t, exec .ddsSetPhase s = .next t ∧ t.lock = false ∧ PhasePingPong s t := by
  refine ⟨_, exec_dds_performed (i := .ddsSetPhase) trivial hl, hl, ?_⟩
  rw [ddsBodyOf, setPhaseBody_eq]
  constructor
  case flipped => exact pselect_setPselect _ _
  case wasLive => exact (phaseShadow_setPhaseShadow _ _ _ _).trans (if_neg (by simp))
  case nowLive =>
    rw [pselect_setPselect]
    exact (phaseShadow_setPhaseShadow _ _ _ _).trans (if_pos rfl)

/-- Settles O48: each command of a pair moves as the first one does, and a selector flipped twice is back. -/
theorem pingPongWritesOnlyTheIdleRegister : Obligations.PingPongWritesOnlyTheIdleRegister := by
  unfold Obligations.PingPongWritesOnlyTheIdleRegister
  intro s hl
  obtain ⟨t, ht, htl, hst⟩ := exec_ddsSetFreq_pingPong hl
  obtain ⟨u, hu, _, htu⟩ := exec_ddsSetFreq_pingPong htl
  obtain ⟨t', ht', htl', hst'⟩ := exec_ddsSetPhase_pingPong hl
  obtain ⟨u', hu', _, htu'⟩ := exec_ddsSetPhase_pingPong htl'
  have hback : fselect u.dds.ctrl = fselect s.dds.ctrl := by rw [htu.flipped, hst.flipped, Bool.not_not]
  have hback' : pselect u'.dds.ctrl = pselect s.dds.ctrl := by rw [htu'.flipped, hst'.flipped, Bool.not_not]
  exact ⟨t, u, t', u', ht, hu, hst.flipped, hback, hst.wasLive, hst.nowLive, hst.request, htu.wasLive,
    ht', hu', hst'.flipped, hback', hst'.wasLive, hst'.nowLive, htu'.wasLive⟩

/-! ## What the six commands leave unchanged -/

theorem IsDdsBody.readBack {body : State → State} (h : IsDdsBody body) (s : State) : (body s).readBack = s.readBack := by
  cases h <;> rfl

/-- No body writes the phase request (42_dds.md R172 to R177). -/
theorem IsDdsBody.phase {body : State → State} (h : IsDdsBody body) (s : State) : (body s).dds.phase = s.dds.phase := by
  cases h with
  | setFreq => exact setFreqShadow_phase _ _ _
  | setPhase => exact setPhaseShadow_phase _ _ _
  | _ => rfl

/-- Every body keeps the fixed bits of the configuration word (10_state.md R39). -/
theorem IsDdsBody.ctrl_fixed {body : State → State} (h : IsDdsBody body) (s : State) :
    (body s).dds.ctrl &&& 0xF27D#16 = s.dds.ctrl &&& 0xF27D#16 := by
  cases h with
  | resume => exact (setBit_fixed _ (by simp) _).trans (setBit_fixed _ (by simp) _)
  | _ => exact setBit_fixed _ (by simp) _

theorem ddsBodyOf_freq {i : Instr} (hi : i ≠ .ddsSetFreq) (s : State) :
    (ddsBodyOf i s).dds.freq = s.dds.freq ∧ (ddsBodyOf i s).dds.freqPrev = s.dds.freqPrev ∧
      (ddsBodyOf i s).dds.freq0 = s.dds.freq0 ∧ (ddsBodyOf i s).dds.freq1 = s.dds.freq1 := by
  cases i with
  | ddsSetFreq => exact absurd rfl hi
  | ddsSetPhase =>
    exact ⟨setPhaseShadow_freq _ _ _, setPhaseShadow_freqPrev _ _ _, setPhaseShadow_freq0 _ _ _,
      setPhaseShadow_freq1 _ _ _⟩
  | _ => exact ⟨rfl, rfl, rfl, rfl⟩

theorem ddsBodyOf_phaseShadows {i : Instr} (hi : i ≠ .ddsSetPhase) (s : State) :
    (ddsBodyOf i s).dds.phase0 = s.dds.phase0 ∧ (ddsBodyOf i s).dds.phase1 = s.dds.phase1 := by
  cases i with
  | ddsSetPhase => exact absurd rfl hi
  | ddsSetFreq => exact ⟨setFreqShadow_phase0 _ _ _, setFreqShadow_phase1 _ _ _⟩
  | _ => exact ⟨rfl, rfl⟩

theorem ddsBodyOf_kind {i : Instr} (hi : ∀ k, i ≠ .ddsSetWaveform k) (s : State) :
    (ddsBodyOf i s).dds.kind = s.dds.kind := by
  cases i with
  | ddsSetWaveform k => exact absurd rfl (hi k)
  | ddsSetFreq => exact setFreqShadow_kind _ _ _
  | ddsSetPhase => exact setPhaseShadow_kind _ _ _
  | _ => rfl

/-- The registers from PWM_CTRL up to the DDS offsets are read from the parameters and the PWM engine
(10_state.md R21). -/
theorem readReg_eq_of_cfg_pwm_eq {s t : State} (hcfg : t.cfg = s.cfg) (hpwm : t.pwm = s.pwm) {r : Reg}
    (hlo : 0x010 ≤ r.offset) (hhi : r.offset ≤ 0x0F8) : readReg t r = readReg s r := by
  revert hlo hhi
  cases r <;> simp [Reg.offset, readReg, hcfg, hpwm]

theorem memRead_eq_of_cfg_pwm_eq {s t : State} (hcfg : t.cfg = s.cfg) (hpwm : t.pwm = s.pwm) {off : Nat}
    (hlo : 0x010 ≤ off) (hhi : off ≤ 0x0F8) : memRead t off = memRead s off := by
  cases h : regAt off with
  | none => rw [memRead_of_regAt_none t h, memRead_of_regAt_none s h]
  | some r =>
    obtain rfl := offset_of_regAt h
    rw [memRead_offset, memRead_offset, readReg_eq_of_cfg_pwm_eq hcfg hpwm hlo hhi]

/-- Settles O49: a drop changes DDS_DONE only; a performed command changes DDS_DONE and what its body writes. -/
theorem ddsCommandsFrame : Obligations.DdsCommandsFrame := by
  unfold Obligations.DdsCommandsFrame
  intro s t i hi h
  have hbody := isDdsBody_ddsBodyOf hi
  obtain ⟨hcfg, hpending⟩ := exec_keepsSurroundings h
  have henv := exec_envHolds h
  have hcommand : ddsCommand (ddsBodyOf i) s = t := Host.Outcome.next.inj ((exec_eq_ddsCommand hi s).symm.trans h)
  have hlock : t.lock = s.lock := hcommand ▸ ddsCommand_lock _ s
  have hpwm : t.pwm = s.pwm := hcommand ▸ ddsCommand_pwm hbody s
  have hreads : ∀ off, 0x010 ≤ off → off ≤ 0x0F8 → memRead t off = memRead s off := fun _ =>
    memRead_eq_of_cfg_pwm_eq hcfg hpwm
  cases hl : s.lock with
  | true =>
    rw [exec_dds_dropped hi hl] at h
    cases h
    exact ⟨rfl, hlock.trans hl, rfl, rfl, rfl, rfl, rfl, rfl, fun _ => ⟨rfl, rfl, rfl, rfl⟩, fun _ => ⟨rfl, rfl⟩,
      fun _ => rfl, rfl, List.prefix_rfl, hreads⟩
  | false =>
    rw [exec_dds_performed hi hl] at h
    cases h
    obtain ⟨ws, hevents⟩ := hbody.events s
    exact ⟨hpwm, hlock.trans hl, henv, hcfg, hpending, hbody.readBack s, rfl, hbody.phase s,
      fun hne => ddsBodyOf_freq hne s, fun hne => ddsBodyOf_phaseShadows hne s, fun hne => ddsBodyOf_kind hne s,
      hbody.ctrl_fixed s, ⟨_, hevents.symm⟩, hreads⟩

end Sys2Proof.Machine

/-! # The commands of the lock (43_buslock.md) -/

namespace Sys2Proof.Machine

/-- 43_buslock.md R210, R212: the test-and-set finds the lock free and takes it. -/
theorem exec_busTrylock_free {s : State} (h : s.lock = false) :
    exec .busTrylock s = .next (setLockOk true { s with lock := true }) := by
  simp only [exec, execBusTrylock, tryAcquire_free h]

/-- 43_buslock.md R210, R212: the test-and-set finds the lock held, whoever holds it, and leaves it. -/
theorem exec_busTrylock_held {s : State} (h : s.lock = true) :
    exec .busTrylock s = .next (setLockOk false s) := by
  simp only [exec, execBusTrylock, tryAcquire_held h]

/-- 43_buslock.md R211: the release asks neither whether the lock is held nor by whom. -/
theorem exec_busUnlock (s : State) : exec .busUnlock s = .next (release s) := rfl

/-- Settles O26: one equation of `exec` for each case; `setLockOk` and `release` write nothing but LOCK_OK and LOCK. -/
theorem lockCommandsTakeAndGiveTheLock : Obligations.LockCommandsTakeAndGiveTheLock := by
  unfold Obligations.LockCommandsTakeAndGiveTheLock
  intro s
  exact ⟨exec_busTrylock_free, exec_busTrylock_held, exec_busUnlock s⟩

end Sys2Proof.Machine

/-! PROOF. An access that is not admitted raises AccessError (60_exceptions.md R229), and a run whose accesses all lie
in the window never stops (R220, R223). Settles O8 and O59. -/

namespace Sys2Proof.Machine

/-! ## Accesses that are not admitted -/

/-- 20_memory.md R61 gives two ways to be not admitted: the width and the alignment. -/
theorem not_admitted_iff {off bytes : Nat} : ¬ Admitted off bytes ↔ bytes ≠ 8 ∨ off % 8 ≠ 0 := not_and_or

/-- A narrow or misaligned HOST read raises AccessError and answers 0 (60_exceptions.md R229). -/
theorem hostRead_not_admitted {addr : HostAddr} {off bytes : Nat} {s : State} (ha : addr.offset? s.cfg = some off)
    (h : ¬ Admitted off bytes) : hostRead addr bytes s = .next (answerRead 0 (raiseAccessError s)) := by
  rw [hostRead, ha]
  exact if_neg h

/-- A narrow or misaligned HOST write raises AccessError and never reaches the register, CMD included (60_exceptions.md
R222, R229). -/
theorem hostWrite_not_admitted {addr : HostAddr} {off bytes : Nat} {s : State} (ha : addr.offset? s.cfg = some off)
    (h : ¬ Admitted off bytes) (v : Word) : hostWrite addr bytes v s = .next (raiseAccessError s) := by
  rw [hostWrite, ha]
  exact if_neg h

/-- Settles O8: the whole effect is raise AccessError, which writes ACCESS_ERR, and for a read the answer 0. -/
theorem accessErrorChangesStatusOnly : Obligations.AccessErrorChangesStatusOnly := by
  unfold Obligations.AccessErrorChangesStatusOnly
  intro s addr off bytes v rest ha h
  have hna : ¬ Admitted off bytes := not_admitted_iff.mpr h
  constructor <;> intro hp <;> rw [step_cons hp]
  · exact hostWrite_not_admitted (s := { s with pending := rest }) ha hna v
  · exact hostRead_not_admitted (s := { s with pending := rest }) ha hna

/-! ## Every stimulus in the window is answered -/

/-- Whatever word is written to CMD, the block goes on: a command answers and IllegalCommand is no trap
(60_exceptions.md R220, 40_dispatch.md R122). -/
theorem dispatch_answers_next (c : Word) (s : State) : ∃ t, dispatch c s = .next t := by
  unfold dispatch
  split
  · exact exec_answers_next _ s
  · exact ⟨_, rfl⟩

theorem memWrite_answers_next (off : Nat) (v : Word) (s : State) : ∃ t, memWrite off v s = .next t := by
  unfold memWrite
  split
  · exact dispatch_answers_next v s
  · exact ⟨_, rfl⟩
  · exact ⟨_, rfl⟩

/-- A HOST read in the window is answered, admitted or not (20_memory.md R63, 60_exceptions.md R229). -/
theorem hostRead_answers_next {addr : HostAddr} {off : Nat} {s : State} (ha : addr.offset? s.cfg = some off)
    (bytes : Nat) : ∃ t, hostRead addr bytes s = .next t := by
  by_cases h : Admitted off bytes
  · obtain ⟨rfl, halign⟩ := h
    exact ⟨_, hostRead_admitted ha halign⟩
  · exact ⟨_, hostRead_not_admitted ha h⟩

/-- A HOST write in the window is answered, admitted or not (20_memory.md R64, 60_exceptions.md R229). -/
theorem hostWrite_answers_next {addr : HostAddr} {off : Nat} {s : State} (ha : addr.offset? s.cfg = some off)
    (bytes : Nat) (v : Word) : ∃ t, hostWrite addr bytes v s = .next t := by
  by_cases h : Admitted off bytes
  · rw [hostWrite, ha]
    simpa only [if_pos h] using memWrite_answers_next off v s
  · exact ⟨_, hostWrite_not_admitted ha h v⟩

/-- The model stops at accesses outside the window and nowhere else (log entry 6, 60_exceptions.md R220). -/
theorem respond_answers_next {st : Stimulus} {s : State} (h : st.InWindow s.cfg) : ∃ t, respond st s = .next t := by
  cases st with
  | read addr bytes =>
    obtain ⟨off, ha⟩ := Option.isSome_iff_exists.mp h
    exact hostRead_answers_next ha bytes
  | write addr bytes v =>
    obtain ⟨off, ha⟩ := Option.isSome_iff_exists.mp h
    exact hostWrite_answers_next ha bytes v
  | envAcquire => exact ⟨_, rfl⟩
  | envRelease => exact ⟨_, rfl⟩
  | reset => exact ⟨_, rfl⟩

/-! ## Runs -/

/-- Every access still to come lies in the window (20_memory.md R60). -/
def PendingInWindow (s : State) : Prop := ∀ st ∈ s.pending, st.InWindow s.cfg

theorem step_answers_next {s : State} (h : PendingInWindow s) : ∃ t, step s = .next t := by
  cases hp : s.pending with
  | nil => exact ⟨s, step_nil hp⟩
  | cons st rest =>
    rw [step_cons hp]
    exact respond_answers_next (s := { s with pending := rest }) (h st (hp ▸ List.mem_cons_self))

/-- The window does not move under a run, because BLOCK_BASE is a parameter (00_scope.md R7). -/
theorem step_keeps_pendingInWindow {s t : State} (hs : PendingInWindow s) (h : step s = .next t) :
    PendingInWindow t := by
  obtain ⟨hcfg, hpending⟩ := stepKeepsTheParameters s t h
  intro st hst
  rw [hcfg]
  exact hs st (List.mem_of_mem_tail (hpending ▸ hst))

theorem safeRun_zero (s : State) : SafeRun 0 s := ⟨s, rfl⟩

/-- A run whose first step answers goes on as the run from there. -/
theorem run_succ_of_step {M : Host.Core} {s t : M.State} (h : M.step s = .next t) (k : Nat) :
    M.run (k + 1) s = M.run k t := by
  rw [Host.Core.run, h]

theorem safeRun_succ {k : Nat} {s t : State} (h : step s = .next t) (ht : SafeRun k t) : SafeRun (k + 1) s :=
  ht.imp fun _ => (run_succ_of_step (M := Sys2Proof.core) h k).trans

/-- The packaged induction: where an invariant makes every step answer and is kept, every run is safe. -/
theorem safeRun_of_invariant {P : State → Prop} (hnext : ∀ {s}, P s → ∃ t, step s = .next t)
    (hkeep : ∀ {s t}, P s → step s = .next t → P t) (k : Nat) {s : State} (hs : P s) : SafeRun k s := by
  induction k generalizing s with
  | zero => exact safeRun_zero s
  | succ k ih =>
    obtain ⟨t, ht⟩ := hnext hs
    exact safeRun_succ ht (ih (hkeep hs ht))

/-- Settles O59: with every pending access in the window a step answers, and what it leaves pending still lies in the
window. -/
theorem programsInTheWindowNeverStop : Obligations.ProgramsInTheWindowNeverStop := fun _ k hs =>
  safeRun_of_invariant step_answers_next step_keeps_pendingInWindow k hs

end Sys2Proof.Machine

/-! PROOF. The constraints of 00_scope.md R6 hold of this machine's parameters by the way they are put together from
opaque constants (log entry 19). -/

namespace Sys2Proof.Config

/-- The greater of two numbers that fit a word is itself the maximum (00_scope.md R6). -/
theorem limitsOf_hi_toNat {a b : Nat} (ha : a < 2 ^ 64) (hb : b < 2 ^ 64) : (limitsOf a b).hi.toNat = max a b := by
  rw [limitsOf, BitVec.toNat_ofNat, Nat.mod_eq_of_lt (max_lt ha hb)]

/-- The lesser of two numbers that fit a word is at most the greater (00_scope.md R6). -/
theorem limitsOf_wellFormed {a b : Nat} (ha : a < 2 ^ 64) (hb : b < 2 ^ 64) : (limitsOf a b).WellFormed := by
  rw [Limits.WellFormed, limitsOf_hi_toNat ha hb, limitsOf, BitVec.toNat_ofNat]
  exact (Nat.mod_le _ _).trans min_le_max

/-- The same for two DDS frequency words, which need no bound. -/
theorem freqLimitsOf_wellFormed (b : FreqWord × FreqWord) : (freqLimitsOf b).WellFormed := by
  rw [FreqLimits.WellFormed, freqLimitsOf, BitVec.toNat_ofNat, BitVec.toNat_ofNat,
    Nat.mod_eq_of_lt (max_lt b.1.isLt b.2.isLt)]
  exact (Nat.mod_le _ _).trans min_le_max

/-- CLK is at least 1 because it is the successor of its constant (00_scope.md R6). -/
theorem one_le_params_clk : 1 ≤ params.clk.toNat := by
  rw [params, BitVec.toNat_ofNat]
  omega

/-- A bound of the duty is at most 1000 per mille and so fits a word (00_scope.md R6). -/
theorem dutyBound_lt (d : Fin 1001) : d.val < 2 ^ 64 := d.isLt.trans (by decide)

theorem params_duty_hi_le : params.duty.hi.toNat ≤ 1000 := by
  rw [params, limitsOf_hi_toNat (dutyBound_lt _) (dutyBound_lt _)]
  omega

/-- The opaque parameters are legal. -/
theorem params_wellFormed : params.WellFormed :=
  ⟨one_le_params_clk, limitsOf_wellFormed freqBounds.1.isLt freqBounds.2.isLt,
    limitsOf_wellFormed (dutyBound_lt _) (dutyBound_lt _), params_duty_hi_le,
    limitsOf_wellFormed thBounds.1.isLt thBounds.2.isLt, limitsOf_wellFormed tlBounds.1.isLt tlBounds.2.isLt,
    freqLimitsOf_wellFormed _, freqLimitsOf_wellFormed _, freqLimitsOf_wellFormed _, Nat.mul_mod_right _ _⟩

end Sys2Proof.Config

/-! PROOF. The reset input: the step that asserts it, and the state of R240 as the HOST reads it and as the start of
the invariant. Settles O23, O24 and O51. -/

namespace Sys2Proof.Machine

/-- An assertion of the reset input is one step (70_reset_and_hazards.md R240). -/
theorem step_reset {s : State} {rest : List Stimulus} (hp : s.pending = .reset :: rest) :
    step s = .next (resetBlock { s with pending := rest }) := step_cons hp

/-- Settles O23: the step answers the reset block, whose units are the reset units whatever stood there before. -/
theorem resetStepSetsResetValues : Obligations.ResetStepSetsResetValues := by
  unfold Obligations.ResetStepSetsResetValues
  intro s rest hp
  refine ⟨resetBlock { s with pending := rest }, step_reset hp, ?_⟩
  simp [Status.reset, Pwm.reset, Dds.reset, Requests.zero, Counts.zero]

/-- Settles O24: each offset, read through the register that stands there. -/
theorem resetStateReadsResetValues : Obligations.ResetStateReadsResetValues := by
  unfold Obligations.ResetStateReadsResetValues
  refine ⟨memRead_offset _ .status, memRead_offset _ .pwmCtrl, ?pwm, memRead_offset _ .ddsFreq,
    memRead_offset _ .ddsFreqPrev, memRead_offset _ .ddsPhase, memRead_offset _ .ddsState, memRead_offset _ .ddsCtrl,
    ?shadows, rfl, rfl, rfl⟩
  case pwm =>
    intro k hk
    interval_cases k
    exacts [memRead_offset _ .pwmFreq, memRead_offset _ .pwmDuty, memRead_offset _ .pwmTh, memRead_offset _ .pwmTl,
      memRead_offset _ .pwmFreqPrev, memRead_offset _ .pwmDutyPrev, memRead_offset _ .pwmThPrev,
      memRead_offset _ .pwmTlPrev, memRead_offset _ .pwmPeriodReg, memRead_offset _ .pwmThReg,
      memRead_offset _ .pwmTlReg, memRead_offset _ .pwmPeriodRegPrev, memRead_offset _ .pwmThRegPrev,
      memRead_offset _ .pwmTlRegPrev, memRead_offset _ .pwmResBits]
  case shadows =>
    intro k hk
    interval_cases k
    exacts [memRead_offset _ .ddsFreq0, memRead_offset _ .ddsFreq1, memRead_offset _ .ddsPhase0,
      memRead_offset _ .ddsPhase1]

/-- Settles O51, unit by unit: the parameters are legal by construction, both units start in their own invariant, and
the history is empty. -/
theorem invariantHoldsAtReset : Obligations.InvariantHoldsAtReset :=
  inv_iff.mpr ⟨Config.params_wellFormed, pwm_inv_reset, dds_inv_reset, List.forall_mem_nil _⟩

end Sys2Proof.Machine
